-- ==== Sys2Proof/Word.lean ====
section
/-!
DEFINITION. The word types of the scanline codec block: a register is 32 bits (spec/00_scope.md R6), memory is
bytes (spec/20_memory.md R80), an RLE4 pixel is a nibble (spec/30_encoding.md R117).
-/

namespace Sys2Proof

/-- A register of the window (R6: "register width 32 bits") and a memory address (R6: ADDR_W = 32). -/
abbrev Word := BitVec 32

/-- One byte of memory (R7: "A byte is 8 bits"). -/
abbrev Byte := BitVec 8

/-- A 4-bit pixel index (R117). -/
abbrev Nibble := BitVec 4

end Sys2Proof
end

