-- ==== Sys2Proof/Config.lean ====
section
/-!
DEFINITION. What an implementation of the block fixes (spec/00_scope.md R6) and the free values that the spec leaves
open. A free value is an opaque constant: nothing can be proved of what it is, so a claim holds whatever it is.
-/

namespace Sys2Proof.Config

/-- MAX_DIM, the largest WIDTH and HEIGHT (R6). -/
def maxDim : Nat := 2 ^ 31 - 1

/-- PAL_MAX, the largest colour-table length (R6). -/
def palMax : Nat := 256

/-- The size of the memory's address space: 2 ^ ADDR_W (R6, spec/20_memory.md R80). -/
def memSize : Nat := 2 ^ 32

/-- The RLE8 encoder's minimum run, in pixels (R6). -/
def rle8MinRun : Nat := 3

/-- The RLE4 encoder's minimum run, in bytes (R6, decision D49). -/
def rle4MinRun : Nat := 2

/-- The number of consecutive EOL codes that end a Group-3 bitmap (R6). -/
def g3EndRun : Nat := 6

/-- REG_BASE, the platform's address of the register window: OPEN in the spec (R6, decision D3). Log 11. -/
opaque regBase : Word

/-- What a byte of memory that nothing has written holds: "any value" (spec/93_implementation_defined.md §1.3, "the
power-on contents of memory"), by address. Log 6. -/
opaque powerOnByte : Nat → Byte

/-- The draw that stands for a byte raced on by host and engine (spec/20_memory.md R92), by draw number, place of the read
in its step, and address. Log 7. -/
opaque raceByte : Nat → Nat → Nat → Byte

/-- The unspecified hidden state after a reset (spec/10_state.md R67), by draw number and variable. Log 8. -/
opaque unspecified : Nat → Nat → Nat

end Sys2Proof.Config
end

