-- ==== Sys2Proof/Syntax.lean ====
section
/-!
DEFINITION. The syntax of everything the block interprets: one constructor of `Instr` for each of the 244 rows of
spec/opcode_table.json, in the table's order. The fields of a constructor are the row's operands.
-/

namespace Sys2Proof

/-- The legal depths, bits per pixel (spec/30_encoding.md R113). -/
inductive Depth
  | d1 | d4 | d8 | d24 | d32
  deriving DecidableEq, Repr

/-- The legal operations (spec/30_encoding.md R112). -/
inductive Operation
  | unpack | decRle8 | decRle4 | decHuff | decRle24 | encRle8 | encRle4
  deriving DecidableEq, Repr

/-- The colour of a Group-3 run (spec/10_state.md R61). -/
inductive Color
  | white | black
  deriving DecidableEq, Repr

/-- The three RLE variants (spec/30_encoding.md R115). -/
inductive Rle
  | rle8 | rle4 | rle24
  deriving DecidableEq, Repr

/-- The fields that every command word carries beside OP and BPP (spec/30_encoding.md R111). -/
structure CmdFlags where
  palfmt : Bool
  outfmt : Bool
  a32 : Bool
  irqEn : Bool
  deriving DecidableEq, Repr

/-- What the block interprets: command words, stream units, emitted units, Group-3 codes and packed pixels. -/
inductive Instr
  -- CMD: the unpacker's command words, one for each depth (spec/30_encoding.md R112, spec/44_unpack.md R330).
  | unpack1 (f : CmdFlags)
  | unpack4 (f : CmdFlags)
  | unpack8 (f : CmdFlags)
  | unpack24 (f : CmdFlags)
  | unpack32 (f : CmdFlags)
  -- CMD: the codec command words. The depth is the word's BPP field; another depth than the operation's own is a
  -- configuration error that START reports (R113, spec/60_exceptions.md R403 check 3).
  | decRle8 (depth : Depth) (f : CmdFlags)
  | decRle4 (depth : Depth) (f : CmdFlags)
  | decHuff (depth : Depth) (f : CmdFlags)
  | decRle24 (depth : Depth) (f : CmdFlags)
  | encRle8 (depth : Depth) (f : CmdFlags)
  | encRle4 (depth : Depth) (f : CmdFlags)
  -- CMD: the reserved OP values, with any BPP field (R126).
  | reservedOp5 (bpp : BitVec 3) (f : CmdFlags)
  | reservedOp6 (bpp : BitVec 3) (f : CmdFlags)
  | reservedOp7 (bpp : BitVec 3) (f : CmdFlags)
  | reservedOp8 (bpp : BitVec 3) (f : CmdFlags)
  | reservedOpB (bpp : BitVec 3) (f : CmdFlags)
  | reservedOpC (bpp : BitVec 3) (f : CmdFlags)
  | reservedOpD (bpp : BitVec 3) (f : CmdFlags)
  | reservedOpE (bpp : BitVec 3) (f : CmdFlags)
  | reservedOpF (bpp : BitVec 3) (f : CmdFlags)
  -- CMD: the reserved BPP values, with any OP that is not itself reserved (R113, R126).
  | reservedBpp5 (op : Operation) (f : CmdFlags)
  | reservedBpp6 (op : Operation) (f : CmdFlags)
  | reservedBpp7 (op : Operation) (f : CmdFlags)
  -- RLE8 units (R116, R119, R120): count c and index v; n and its n data bytes.
  | rle8Run (c v : Byte)
  | rle8Eol
  | rle8Eob
  | rle8Delta (dx dy : Byte)
  | rle8Abs (n : Byte) (data : List Byte)
  -- RLE4 units (R117, R119, R120): a run's value is the nibbles h, l; n pixels lie in ceil(n/2) data bytes.
  | rle4Run (c : Byte) (h l : Nibble)
  | rle4Eol
  | rle4Eob
  | rle4Delta (dx dy : Byte)
  | rle4Abs (n : Byte) (data : List Byte)
  -- RLE24 units (R118, R119, R120): a run's pixel is b0 b1 b2; n pixels lie in 3n data bytes.
  | rle24Run (c b0 b1 b2 : Byte)
  | rle24Eol
  | rle24Eob
  | rle24Delta (dx dy : Byte)
  | rle24Abs (n : Byte) (data : List Byte)
  -- The units the encoders emit (spec/43_rle_encode.md R286 to R289). A short literal is one encoded run [c, v], or
  -- at RLE8 two runs of one pixel each, [1, v] and [1, w], when its two pixels differ (R288).
  | encRun (c v : Byte)
  | encAbs (n : Byte) (data : List Byte)
  | encShort (c v : Byte) (w : Option Byte)
  | encEol
  | encEob
  -- White terminating codes, run 0 to 63 (spec/42_g3_code_tables.md R251, spec/41_g3_decode.md R206).
  | wt0 | wt1 | wt2 | wt3 | wt4 | wt5 | wt6 | wt7
  | wt8 | wt9 | wt10 | wt11 | wt12 | wt13 | wt14 | wt15
  | wt16 | wt17 | wt18 | wt19 | wt20 | wt21 | wt22 | wt23
  | wt24 | wt25 | wt26 | wt27 | wt28 | wt29 | wt30 | wt31
  | wt32 | wt33 | wt34 | wt35 | wt36 | wt37 | wt38 | wt39
  | wt40 | wt41 | wt42 | wt43 | wt44 | wt45 | wt46 | wt47
  | wt48 | wt49 | wt50 | wt51 | wt52 | wt53 | wt54 | wt55
  | wt56 | wt57 | wt58 | wt59 | wt60 | wt61 | wt62 | wt63
  -- White make-up codes, run 64 to 1728 (R252, R207).
  | wm64 | wm128 | wm192 | wm256 | wm320 | wm384 | wm448 | wm512
  | wm576 | wm640 | wm704 | wm768 | wm832 | wm896 | wm960 | wm1024
  | wm1088 | wm1152 | wm1216 | wm1280 | wm1344 | wm1408 | wm1472 | wm1536
  | wm1600 | wm1664 | wm1728
  -- Black terminating codes, run 0 to 63 (R253, R206).
  | bt0 | bt1 | bt2 | bt3 | bt4 | bt5 | bt6 | bt7
  | bt8 | bt9 | bt10 | bt11 | bt12 | bt13 | bt14 | bt15
  | bt16 | bt17 | bt18 | bt19 | bt20 | bt21 | bt22 | bt23
  | bt24 | bt25 | bt26 | bt27 | bt28 | bt29 | bt30 | bt31
  | bt32 | bt33 | bt34 | bt35 | bt36 | bt37 | bt38 | bt39
  | bt40 | bt41 | bt42 | bt43 | bt44 | bt45 | bt46 | bt47
  | bt48 | bt49 | bt50 | bt51 | bt52 | bt53 | bt54 | bt55
  | bt56 | bt57 | bt58 | bt59 | bt60 | bt61 | bt62 | bt63
  -- Black make-up codes, run 64 to 1728 (R254, R207).
  | bm64 | bm128 | bm192 | bm256 | bm320 | bm384 | bm448 | bm512
  | bm576 | bm640 | bm704 | bm768 | bm832 | bm896 | bm960 | bm1024
  | bm1088 | bm1152 | bm1216 | bm1280 | bm1344 | bm1408 | bm1472 | bm1536
  | bm1600 | bm1664 | bm1728
  -- Shared make-up codes, run 1792 to 2560 (R255, R208).
  | xm1792 | xm1856 | xm1920 | xm1984 | xm2048 | xm2112 | xm2176 | xm2240
  | xm2304 | xm2368 | xm2432 | xm2496 | xm2560
  -- EOL with `fill` zero bits before its eleven (R256, R204).
  | eol (fill : Nat)
  -- The packed pixels the unpacker reads (R125; spec/44_unpack.md R334, R336 to R339): the bytes that hold the pixel.
  | pix1 (e : Byte)
  | pix4 (h l : Nibble)
  | pix8 (v : Byte)
  | pix24 (b g r : Byte)
  | pix32 (b g r x : Byte)
  deriving DecidableEq, Repr

end Sys2Proof
end

