-- ==== Sys2Proof/WellFormed.lean ====
section
/-!
DEFINITION. Which terms of `Instr` are instructions: the operand ranges of spec/30_encoding.md R115 to R120 and of
spec/43_rle_encode.md R286 to R288.
-/

namespace Sys2Proof

/-- The number of data bytes of an absolute run of n pixels: D of R120. -/
def Rle.dataBytes : Rle → Nat → Nat
  | .rle8, n => n
  | .rle4, n => (n + 1) / 2
  | .rle24, n => 3 * n

/-- An absolute run holds at least 3 pixels, and exactly the data bytes that R120 gives it. -/
def absWellFormed (v : Rle) (n : Byte) (data : List Byte) : Bool :=
  decide (3 ≤ n.toNat) && data.length == v.dataBytes n.toNat

/-- The operand ranges of each instruction. A count of 0 is no run (R115); an emitted run has at least 3 pixels and a
short literal 1 or 2 (R286, R288), two runs only when each is of one pixel. -/
def Instr.wellFormed : Instr → Bool
  | .unpack1 _ | .unpack4 _ | .unpack8 _ | .unpack24 _ | .unpack32 _ => true
  | .decRle8 _ _ | .decRle4 _ _ | .decHuff _ _ | .decRle24 _ _ | .encRle8 _ _ | .encRle4 _ _ => true
  | .reservedOp5 _ _ | .reservedOp6 _ _ | .reservedOp7 _ _ | .reservedOp8 _ _ | .reservedOpB _ _ => true
  | .reservedOpC _ _ | .reservedOpD _ _ | .reservedOpE _ _ | .reservedOpF _ _ => true
  | .reservedBpp5 _ _ | .reservedBpp6 _ _ | .reservedBpp7 _ _ => true
  | .rle8Run c _ => c != 0
  | .rle8Eol | .rle8Eob | .rle8Delta _ _ => true
  | .rle8Abs n data => absWellFormed .rle8 n data
  | .rle4Run c _ _ => c != 0
  | .rle4Eol | .rle4Eob | .rle4Delta _ _ => true
  | .rle4Abs n data => absWellFormed .rle4 n data
  | .rle24Run c _ _ _ => c != 0
  | .rle24Eol | .rle24Eob | .rle24Delta _ _ => true
  | .rle24Abs n data => absWellFormed .rle24 n data
  | .encRun c _ => decide (3 ≤ c.toNat)
  | .encAbs n data => absWellFormed .rle8 n data || absWellFormed .rle4 n data
  | .encShort c _ w => c == 1 || (c == 2 && w.isNone)
  | .encEol | .encEob => true
  | .wt0 | .wt1 | .wt2 | .wt3 | .wt4 | .wt5 | .wt6 | .wt7 | .wt8 | .wt9
  | .wt10 | .wt11 | .wt12 | .wt13 | .wt14 | .wt15 | .wt16 | .wt17 | .wt18 | .wt19
  | .wt20 | .wt21 | .wt22 | .wt23 | .wt24 | .wt25 | .wt26 | .wt27 | .wt28 | .wt29
  | .wt30 | .wt31 | .wt32 | .wt33 | .wt34 | .wt35 | .wt36 | .wt37 | .wt38 | .wt39
  | .wt40 | .wt41 | .wt42 | .wt43 | .wt44 | .wt45 | .wt46 | .wt47 | .wt48 | .wt49
  | .wt50 | .wt51 | .wt52 | .wt53 | .wt54 | .wt55 | .wt56 | .wt57 | .wt58 | .wt59
  | .wt60 | .wt61 | .wt62 | .wt63 | .wm64 | .wm128 | .wm192 | .wm256 | .wm320 | .wm384
  | .wm448 | .wm512 | .wm576 | .wm640 | .wm704 | .wm768 | .wm832 | .wm896 | .wm960 | .wm1024
  | .wm1088 | .wm1152 | .wm1216 | .wm1280 | .wm1344 | .wm1408 | .wm1472 | .wm1536 | .wm1600 | .wm1664
  | .wm1728 => true
  | .bt0 | .bt1 | .bt2 | .bt3 | .bt4 | .bt5 | .bt6 | .bt7 | .bt8 | .bt9
  | .bt10 | .bt11 | .bt12 | .bt13 | .bt14 | .bt15 | .bt16 | .bt17 | .bt18 | .bt19
  | .bt20 | .bt21 | .bt22 | .bt23 | .bt24 | .bt25 | .bt26 | .bt27 | .bt28 | .bt29
  | .bt30 | .bt31 | .bt32 | .bt33 | .bt34 | .bt35 | .bt36 | .bt37 | .bt38 | .bt39
  | .bt40 | .bt41 | .bt42 | .bt43 | .bt44 | .bt45 | .bt46 | .bt47 | .bt48 | .bt49
  | .bt50 | .bt51 | .bt52 | .bt53 | .bt54 | .bt55 | .bt56 | .bt57 | .bt58 | .bt59
  | .bt60 | .bt61 | .bt62 | .bt63 | .bm64 | .bm128 | .bm192 | .bm256 | .bm320 | .bm384
  | .bm448 | .bm512 | .bm576 | .bm640 | .bm704 | .bm768 | .bm832 | .bm896 | .bm960 | .bm1024
  | .bm1088 | .bm1152 | .bm1216 | .bm1280 | .bm1344 | .bm1408 | .bm1472 | .bm1536 | .bm1600 | .bm1664
  | .bm1728 => true
  | .xm1792 | .xm1856 | .xm1920 | .xm1984 | .xm2048 | .xm2112 | .xm2176 | .xm2240 | .xm2304 | .xm2368
  | .xm2432 | .xm2496 | .xm2560 => true
  | .eol _ => true
  | .pix1 _ | .pix4 _ _ | .pix8 _ | .pix24 _ _ _ | .pix32 _ _ _ _ => true

end Sys2Proof
end

