-- ==== Sys2Proof/Decode.lean ====
section
/-!
DEFINITION. From bits to instructions and back (spec/30_encoding.md, spec/42_g3_code_tables.md). Which decoder reads a
bit depends on what the engine is doing, so a decoder is chosen by a `Context`. Decoding is total and rejects by name.
-/

namespace Sys2Proof

/-! ### What is decoded -/

/-- What the engine reads: a command word, a stream of one RLE variant, a stream an encoder wrote, a Group-3 stream at
a colour, a packed row at a depth (R110). -/
inductive Context
  | command
  | rle (v : Rle)
  | emit8
  | emit4
  | g3 (c : Color)
  | pix (d : Depth)
  deriving DecidableEq, Repr

/-- An encoded instruction: a 32-bit command word, bytes in address order, or code bits, first bit first (R7, R110). -/
inductive Words
  | command (w : Word)
  | bytes (bs : List Byte)
  | code (bits : List Bool)
  deriving DecidableEq, Repr

/-- Why a decoder reads no instruction. -/
inductive Reject
  /-- The CTRL value has START = 0: it starts nothing (spec/10_state.md R44). -/
  | notACommand
  /-- The input ends inside the unit or code (spec/40_rle_decode.md R151, spec/41_g3_decode.md R202). -/
  | truncated
  /-- The bits are a prefix of no code (R124, R126). -/
  | badCode
  /-- The words are not of the context's format. -/
  | wrongFormat
  deriving DecidableEq, Repr

/-! ### Command words (R111 to R113, R126) -/

/-- The depth in bits per pixel (R113). -/
def Depth.bits : Depth → Nat
  | .d1 => 1
  | .d4 => 4
  | .d8 => 8
  | .d24 => 24
  | .d32 => 32

/-- The BPP code of a depth (R113). -/
def Depth.code : Depth → BitVec 3
  | .d1 => 0
  | .d4 => 1
  | .d8 => 2
  | .d24 => 3
  | .d32 => 4

/-- The depth of a BPP code; 5, 6 and 7 are reserved (R113). -/
def Depth.ofCode (v : BitVec 3) : Option Depth :=
  match v.toNat with
  | 0 => some .d1
  | 1 => some .d4
  | 2 => some .d8
  | 3 => some .d24
  | 4 => some .d32
  | _ => none

/-- The OP code of an operation (R112). -/
def Operation.code : Operation → BitVec 4
  | .unpack => 0x0
  | .decRle8 => 0x1
  | .decRle4 => 0x2
  | .decHuff => 0x3
  | .decRle24 => 0x4
  | .encRle8 => 0x9
  | .encRle4 => 0xA

/-- The operation of an OP code; the others are reserved (R112, R126). -/
def Operation.ofCode (v : BitVec 4) : Option Operation :=
  match v.toNat with
  | 0x0 => some .unpack
  | 0x1 => some .decRle8
  | 0x2 => some .decRle4
  | 0x3 => some .decHuff
  | 0x4 => some .decRle24
  | 0x9 => some .encRle8
  | 0xA => some .encRle4
  | _ => none

/-- The pixel depth that a codec operation needs in BPP; UNPACK takes any (R112, R113). -/
def Operation.depth? : Operation → Option Depth
  | .unpack => none
  | .decRle8 => some .d8
  | .decRle4 => some .d4
  | .decHuff => some .d1
  | .decRle24 => some .d24
  | .encRle8 => some .d8
  | .encRle4 => some .d4

/-- A command word's instruction when OP is reserved (R126). -/
def reservedOpCommand (op : BitVec 4) (bpp : BitVec 3) (f : CmdFlags) : Instr :=
  match op.toNat with
  | 0x5 => .reservedOp5 bpp f
  | 0x6 => .reservedOp6 bpp f
  | 0x7 => .reservedOp7 bpp f
  | 0x8 => .reservedOp8 bpp f
  | 0xB => .reservedOpB bpp f
  | 0xC => .reservedOpC bpp f
  | 0xD => .reservedOpD bpp f
  | 0xE => .reservedOpE bpp f
  | _ => .reservedOpF bpp f

/-- A command word's instruction when OP is legal and BPP is reserved (R126). -/
def reservedBppCommand (op : Operation) (bpp : BitVec 3) (f : CmdFlags) : Instr :=
  match bpp.toNat with
  | 5 => .reservedBpp5 op f
  | 6 => .reservedBpp6 op f
  | _ => .reservedBpp7 op f

/-- A command word's instruction when OP and BPP are both legal (R112, R113). -/
def legalCommand (op : Operation) (d : Depth) (f : CmdFlags) : Instr :=
  match op, d with
  | .unpack, .d1 => .unpack1 f
  | .unpack, .d4 => .unpack4 f
  | .unpack, .d8 => .unpack8 f
  | .unpack, .d24 => .unpack24 f
  | .unpack, .d32 => .unpack32 f
  | .decRle8, d => .decRle8 d f
  | .decRle4, d => .decRle4 d f
  | .decHuff, d => .decHuff d f
  | .decRle24, d => .decRle24 d f
  | .encRle8, d => .encRle8 d f
  | .encRle4, d => .encRle4 d f

/-- The instruction that the CTRL fields OP, BPP and the rest select at START (R112, R113, R126). The reserved OP
values come first, as in spec/60_exceptions.md R403 checks 1 and 2. -/
def commandOf (op : BitVec 4) (bpp : BitVec 3) (f : CmdFlags) : Instr :=
  match Operation.ofCode op with
  | none => reservedOpCommand op bpp f
  | some o =>
    match Depth.ofCode bpp with
    | none => reservedBppCommand o bpp f
    | some d => legalCommand o d f

/-- The fields of a CTRL value other than START, OP and BPP (R111). -/
def flagsOfWord (w : Word) : CmdFlags :=
  { palfmt := w.getLsbD 11, outfmt := w.getLsbD 12, a32 := w.getLsbD 13, irqEn := w.getLsbD 16 }

/-- The OP field, CTRL bits 7:4 (R111). -/
def opOfWord (w : Word) : BitVec 4 := w.extractLsb' 4 4

/-- The BPP field, CTRL bits 10:8 (R111). -/
def bppOfWord (w : Word) : BitVec 3 := w.extractLsb' 8 3

/-- A command word is a CTRL value with START = 1; the reserved bits are ignored (R111, R126). -/
def decodeCommand (w : Word) : Except Reject Instr :=
  if w.getLsbD 0 then .ok (commandOf (opOfWord w) (bppOfWord w) (flagsOfWord w)) else .error .notACommand

/-- One bit of a register. -/
def bitWord (b : Bool) : Word := if b then 1 else 0

/-- The CTRL fields packed without START: what CTRL reads as (spec/10_state.md R43, R44). -/
def packCtrl (op : BitVec 4) (bpp : BitVec 3) (f : CmdFlags) : Word :=
  (bitWord f.irqEn <<< 16) ||| (bitWord f.a32 <<< 13) ||| (bitWord f.outfmt <<< 12) ||| (bitWord f.palfmt <<< 11) |||
    (bpp.setWidth 32 <<< 8) ||| (op.setWidth 32 <<< 4)

/-- The word that starts a command (R111). -/
def commandWord (op : BitVec 4) (bpp : BitVec 3) (f : CmdFlags) : Word := packCtrl op bpp f ||| 1

/-! ### RLE stream units (R115 to R122) -/

/-- The length in bytes of a unit that starts with the head bytes c, d (R121). -/
def unitLength (v : Rle) (c d : Byte) : Nat :=
  if c ≠ 0 then (if v = .rle24 then 4 else 2)
  else if d.toNat < 2 then 2
  else if d.toNat = 2 then 4
  else 2 + v.dataBytes d.toNat + v.dataBytes d.toNat % 2

/-- The encoded run of each variant, from its count and the bytes after it (R116 to R118). -/
def decodeRun (v : Rle) (c d : Byte) (t : List Byte) : Except Reject (Instr × List Byte) :=
  match v, t with
  | .rle8, t => .ok (.rle8Run c d, t)
  | .rle4, t => .ok (.rle4Run c (d.extractLsb' 4 4) (d.extractLsb' 0 4), t)
  | .rle24, b1 :: b2 :: t => .ok (.rle24Run c d b1 b2, t)
  | .rle24, _ => .error .truncated

/-- The absolute run of n pixels of each variant: D data bytes, then a pad byte if D is odd, whose value is ignored
(R120). -/
def decodeAbs (v : Rle) (n : Byte) (t : List Byte) : Except Reject (Instr × List Byte) :=
  let dataLen := v.dataBytes n.toNat
  let len := dataLen + dataLen % 2
  if (t.take len).length < len then .error .truncated
  else
    let data := t.take dataLen
    let rest := t.drop len
    match v with
    | .rle8 => .ok (.rle8Abs n data, rest)
    | .rle4 => .ok (.rle4Abs n data, rest)
    | .rle24 => .ok (.rle24Abs n data, rest)

/-- The end-of-line escape of each variant (R119). -/
def Rle.eol : Rle → Instr
  | .rle8 => .rle8Eol
  | .rle4 => .rle4Eol
  | .rle24 => .rle24Eol

/-- The end-of-bitmap escape of each variant (R119). -/
def Rle.eob : Rle → Instr
  | .rle8 => .rle8Eob
  | .rle4 => .rle4Eob
  | .rle24 => .rle24Eob

/-- The reposition escape of each variant (R119). -/
def Rle.delta : Rle → Byte → Byte → Instr
  | .rle8, dx, dy => .rle8Delta dx dy
  | .rle4, dx, dy => .rle4Delta dx dy
  | .rle24, dx, dy => .rle24Delta dx dy

/-- The unit at the head of a byte stream, with the bytes after it. Every byte pair is a head (R115, R126); a unit
that the stream cuts short is `truncated` (spec/40_rle_decode.md R150, R151). -/
def decodeUnit (v : Rle) : List Byte → Except Reject (Instr × List Byte)
  | c :: d :: t =>
    if c ≠ 0 then decodeRun v c d t
    else if d = 0 then .ok (v.eol, t)
    else if d = 1 then .ok (v.eob, t)
    else if d = 2 then
      match t with
      | dx :: dy :: t => .ok (v.delta dx dy, t)
      | _ => .error .truncated
    else decodeAbs v d t
  | _ => .error .truncated

/-- The pad after D data bytes: one 0x00 byte if D is odd (R120, decision D33). -/
def padBytes (dataLen : Nat) : List Byte := List.replicate (dataLen % 2) 0

/-- An absolute run as bytes (R120). -/
def absBytes (n : Byte) (data : List Byte) : List Byte := 0 :: n :: data ++ padBytes data.length

/-! ### Units in a stream an encoder wrote (spec/43_rle_encode.md R286 to R289) -/

/-- An emitted absolute run (R287). -/
def decodeEmitAbs (v : Rle) (n : Byte) (t : List Byte) : Except Reject (Instr × List Byte) :=
  let dataLen := v.dataBytes n.toNat
  let len := dataLen + dataLen % 2
  if (t.take len).length < len then .error .truncated else .ok (.encAbs n (t.take dataLen), t.drop len)

/-- The emitted unit at the head of an encoder's output. A count of 1 or 2 is a short literal; at RLE8 a second run of
one pixel belongs to it (R288). -/
def decodeEmit (v : Rle) : List Byte → Except Reject (Instr × List Byte)
  | c :: d :: t =>
    if 3 ≤ c.toNat then .ok (.encRun c d, t)
    else if c = 2 then .ok (.encShort 2 d none, t)
    else if c = 1 then
      match v, t with
      | .rle8, e :: w :: t' => if e = 1 then .ok (.encShort 1 d (some w), t') else .ok (.encShort 1 d none, t)
      | _, t => .ok (.encShort 1 d none, t)
    else if d = 0 then .ok (.encEol, t)
    else if d = 1 then .ok (.encEob, t)
    else if d = 2 then .error .badCode
    else decodeEmitAbs v d t
  | _ => .error .truncated

/-! ### Group-3 codes (R123, R124; spec/42_g3_code_tables.md) -/

/-- One row of a Group-3 code table: the run, the code's length in bits, the code as a binary number whose most
significant bit is the first bit, and the instruction it stands for. -/
structure CodeRow where
  run : Nat
  len : Nat
  val : Nat
  instr : Instr
  deriving DecidableEq, Repr

/-- White terminating codes (R251). -/
def whiteTerminating : List CodeRow :=
  [⟨0, 8, 0b00110101, .wt0⟩, ⟨1, 6, 0b000111, .wt1⟩, ⟨2, 4, 0b0111, .wt2⟩,
   ⟨3, 4, 0b1000, .wt3⟩, ⟨4, 4, 0b1011, .wt4⟩, ⟨5, 4, 0b1100, .wt5⟩,
   ⟨6, 4, 0b1110, .wt6⟩, ⟨7, 4, 0b1111, .wt7⟩, ⟨8, 5, 0b10011, .wt8⟩,
   ⟨9, 5, 0b10100, .wt9⟩, ⟨10, 5, 0b00111, .wt10⟩, ⟨11, 5, 0b01000, .wt11⟩,
   ⟨12, 6, 0b001000, .wt12⟩, ⟨13, 6, 0b000011, .wt13⟩, ⟨14, 6, 0b110100, .wt14⟩,
   ⟨15, 6, 0b110101, .wt15⟩, ⟨16, 6, 0b101010, .wt16⟩, ⟨17, 6, 0b101011, .wt17⟩,
   ⟨18, 7, 0b0100111, .wt18⟩, ⟨19, 7, 0b0001100, .wt19⟩, ⟨20, 7, 0b0001000, .wt20⟩,
   ⟨21, 7, 0b0010111, .wt21⟩, ⟨22, 7, 0b0000011, .wt22⟩, ⟨23, 7, 0b0000100, .wt23⟩,
   ⟨24, 7, 0b0101000, .wt24⟩, ⟨25, 7, 0b0101011, .wt25⟩, ⟨26, 7, 0b0010011, .wt26⟩,
   ⟨27, 7, 0b0100100, .wt27⟩, ⟨28, 7, 0b0011000, .wt28⟩, ⟨29, 8, 0b00000010, .wt29⟩,
   ⟨30, 8, 0b00000011, .wt30⟩, ⟨31, 8, 0b00011010, .wt31⟩] ++
  [⟨32, 8, 0b00011011, .wt32⟩, ⟨33, 8, 0b00010010, .wt33⟩, ⟨34, 8, 0b00010011, .wt34⟩,
   ⟨35, 8, 0b00010100, .wt35⟩, ⟨36, 8, 0b00010101, .wt36⟩, ⟨37, 8, 0b00010110, .wt37⟩,
   ⟨38, 8, 0b00010111, .wt38⟩, ⟨39, 8, 0b00101000, .wt39⟩, ⟨40, 8, 0b00101001, .wt40⟩,
   ⟨41, 8, 0b00101010, .wt41⟩, ⟨42, 8, 0b00101011, .wt42⟩, ⟨43, 8, 0b00101100, .wt43⟩,
   ⟨44, 8, 0b00101101, .wt44⟩, ⟨45, 8, 0b00000100, .wt45⟩, ⟨46, 8, 0b00000101, .wt46⟩,
   ⟨47, 8, 0b00001010, .wt47⟩, ⟨48, 8, 0b00001011, .wt48⟩, ⟨49, 8, 0b01010010, .wt49⟩,
   ⟨50, 8, 0b01010011, .wt50⟩, ⟨51, 8, 0b01010100, .wt51⟩, ⟨52, 8, 0b01010101, .wt52⟩,
   ⟨53, 8, 0b00100100, .wt53⟩, ⟨54, 8, 0b00100101, .wt54⟩, ⟨55, 8, 0b01011000, .wt55⟩,
   ⟨56, 8, 0b01011001, .wt56⟩, ⟨57, 8, 0b01011010, .wt57⟩, ⟨58, 8, 0b01011011, .wt58⟩,
   ⟨59, 8, 0b01001010, .wt59⟩, ⟨60, 8, 0b01001011, .wt60⟩, ⟨61, 8, 0b00110010, .wt61⟩,
   ⟨62, 8, 0b00110011, .wt62⟩, ⟨63, 8, 0b00110100, .wt63⟩]

/-- White make-up codes (R252). -/
def whiteMakeUp : List CodeRow :=
  [⟨64, 5, 0b11011, .wm64⟩, ⟨128, 5, 0b10010, .wm128⟩, ⟨192, 6, 0b010111, .wm192⟩,
   ⟨256, 7, 0b0110111, .wm256⟩, ⟨320, 8, 0b00110110, .wm320⟩, ⟨384, 8, 0b00110111, .wm384⟩,
   ⟨448, 8, 0b01100100, .wm448⟩, ⟨512, 8, 0b01100101, .wm512⟩, ⟨576, 8, 0b01101000, .wm576⟩,
   ⟨640, 8, 0b01100111, .wm640⟩, ⟨704, 9, 0b011001100, .wm704⟩, ⟨768, 9, 0b011001101, .wm768⟩,
   ⟨832, 9, 0b011010010, .wm832⟩, ⟨896, 9, 0b011010011, .wm896⟩, ⟨960, 9, 0b011010100, .wm960⟩,
   ⟨1024, 9, 0b011010101, .wm1024⟩, ⟨1088, 9, 0b011010110, .wm1088⟩, ⟨1152, 9, 0b011010111, .wm1152⟩,
   ⟨1216, 9, 0b011011000, .wm1216⟩, ⟨1280, 9, 0b011011001, .wm1280⟩, ⟨1344, 9, 0b011011010, .wm1344⟩,
   ⟨1408, 9, 0b011011011, .wm1408⟩, ⟨1472, 9, 0b010011000, .wm1472⟩, ⟨1536, 9, 0b010011001, .wm1536⟩,
   ⟨1600, 9, 0b010011010, .wm1600⟩, ⟨1664, 6, 0b011000, .wm1664⟩, ⟨1728, 9, 0b010011011, .wm1728⟩]

/-- Black terminating codes (R253). -/
def blackTerminating : List CodeRow :=
  [⟨0, 10, 0b0000110111, .bt0⟩, ⟨1, 3, 0b010, .bt1⟩, ⟨2, 2, 0b11, .bt2⟩,
   ⟨3, 2, 0b10, .bt3⟩, ⟨4, 3, 0b011, .bt4⟩, ⟨5, 4, 0b0011, .bt5⟩,
   ⟨6, 4, 0b0010, .bt6⟩, ⟨7, 5, 0b00011, .bt7⟩, ⟨8, 6, 0b000101, .bt8⟩,
   ⟨9, 6, 0b000100, .bt9⟩, ⟨10, 7, 0b0000100, .bt10⟩, ⟨11, 7, 0b0000101, .bt11⟩,
   ⟨12, 7, 0b0000111, .bt12⟩, ⟨13, 8, 0b00000100, .bt13⟩, ⟨14, 8, 0b00000111, .bt14⟩,
   ⟨15, 9, 0b000011000, .bt15⟩, ⟨16, 10, 0b0000010111, .bt16⟩, ⟨17, 10, 0b0000011000, .bt17⟩,
   ⟨18, 10, 0b0000001000, .bt18⟩, ⟨19, 11, 0b00001100111, .bt19⟩, ⟨20, 11, 0b00001101000, .bt20⟩,
   ⟨21, 11, 0b00001101100, .bt21⟩, ⟨22, 11, 0b00000110111, .bt22⟩, ⟨23, 11, 0b00000101000, .bt23⟩,
   ⟨24, 11, 0b00000010111, .bt24⟩, ⟨25, 11, 0b00000011000, .bt25⟩, ⟨26, 12, 0b000011001010, .bt26⟩,
   ⟨27, 12, 0b000011001011, .bt27⟩, ⟨28, 12, 0b000011001100, .bt28⟩, ⟨29, 12, 0b000011001101, .bt29⟩,
   ⟨30, 12, 0b000001101000, .bt30⟩, ⟨31, 12, 0b000001101001, .bt31⟩] ++
  [⟨32, 12, 0b000001101010, .bt32⟩, ⟨33, 12, 0b000001101011, .bt33⟩, ⟨34, 12, 0b000011010010, .bt34⟩,
   ⟨35, 12, 0b000011010011, .bt35⟩, ⟨36, 12, 0b000011010100, .bt36⟩, ⟨37, 12, 0b000011010101, .bt37⟩,
   ⟨38, 12, 0b000011010110, .bt38⟩, ⟨39, 12, 0b000011010111, .bt39⟩, ⟨40, 12, 0b000001101100, .bt40⟩,
   ⟨41, 12, 0b000001101101, .bt41⟩, ⟨42, 12, 0b000011011010, .bt42⟩, ⟨43, 12, 0b000011011011, .bt43⟩,
   ⟨44, 12, 0b000001010100, .bt44⟩, ⟨45, 12, 0b000001010101, .bt45⟩, ⟨46, 12, 0b000001010110, .bt46⟩,
   ⟨47, 12, 0b000001010111, .bt47⟩, ⟨48, 12, 0b000001100100, .bt48⟩, ⟨49, 12, 0b000001100101, .bt49⟩,
   ⟨50, 12, 0b000001010010, .bt50⟩, ⟨51, 12, 0b000001010011, .bt51⟩, ⟨52, 12, 0b000000100100, .bt52⟩,
   ⟨53, 12, 0b000000110111, .bt53⟩, ⟨54, 12, 0b000000111000, .bt54⟩, ⟨55, 12, 0b000000100111, .bt55⟩,
   ⟨56, 12, 0b000000101000, .bt56⟩, ⟨57, 12, 0b000001011000, .bt57⟩, ⟨58, 12, 0b000001011001, .bt58⟩,
   ⟨59, 12, 0b000000101011, .bt59⟩, ⟨60, 12, 0b000000101100, .bt60⟩, ⟨61, 12, 0b000001011010, .bt61⟩,
   ⟨62, 12, 0b000001100110, .bt62⟩, ⟨63, 12, 0b000001100111, .bt63⟩]

/-- Black make-up codes (R254). -/
def blackMakeUp : List CodeRow :=
  [⟨64, 10, 0b0000001111, .bm64⟩, ⟨128, 12, 0b000011001000, .bm128⟩, ⟨192, 12, 0b000011001001, .bm192⟩,
   ⟨256, 12, 0b000001011011, .bm256⟩, ⟨320, 12, 0b000000110011, .bm320⟩, ⟨384, 12, 0b000000110100, .bm384⟩,
   ⟨448, 12, 0b000000110101, .bm448⟩, ⟨512, 13, 0b0000001101100, .bm512⟩, ⟨576, 13, 0b0000001101101, .bm576⟩,
   ⟨640, 13, 0b0000001001010, .bm640⟩, ⟨704, 13, 0b0000001001011, .bm704⟩, ⟨768, 13, 0b0000001001100, .bm768⟩,
   ⟨832, 13, 0b0000001001101, .bm832⟩, ⟨896, 13, 0b0000001110010, .bm896⟩, ⟨960, 13, 0b0000001110011, .bm960⟩,
   ⟨1024, 13, 0b0000001110100, .bm1024⟩, ⟨1088, 13, 0b0000001110101, .bm1088⟩, ⟨1152, 13, 0b0000001110110, .bm1152⟩,
   ⟨1216, 13, 0b0000001110111, .bm1216⟩, ⟨1280, 13, 0b0000001010010, .bm1280⟩, ⟨1344, 13, 0b0000001010011, .bm1344⟩,
   ⟨1408, 13, 0b0000001010100, .bm1408⟩, ⟨1472, 13, 0b0000001010101, .bm1472⟩, ⟨1536, 13, 0b0000001011010, .bm1536⟩,
   ⟨1600, 13, 0b0000001011011, .bm1600⟩, ⟨1664, 13, 0b0000001100100, .bm1664⟩, ⟨1728, 13, 0b0000001100101, .bm1728⟩]

/-- Shared make-up codes, the same in both colours (R255). -/
def sharedMakeUp : List CodeRow :=
  [⟨1792, 11, 0b00000001000, .xm1792⟩, ⟨1856, 11, 0b00000001100, .xm1856⟩, ⟨1920, 11, 0b00000001101, .xm1920⟩,
   ⟨1984, 12, 0b000000010010, .xm1984⟩, ⟨2048, 12, 0b000000010011, .xm2048⟩, ⟨2112, 12, 0b000000010100, .xm2112⟩,
   ⟨2176, 12, 0b000000010101, .xm2176⟩, ⟨2240, 12, 0b000000010110, .xm2240⟩, ⟨2304, 12, 0b000000010111, .xm2304⟩,
   ⟨2368, 12, 0b000000011100, .xm2368⟩, ⟨2432, 12, 0b000000011101, .xm2432⟩, ⟨2496, 12, 0b000000011110, .xm2496⟩,
   ⟨2560, 12, 0b000000011111, .xm2560⟩]

/-- A code word: its length in bits and its bits as a binary number, first bit most significant. -/
structure Code where
  len : Nat
  val : Nat
  deriving DecidableEq, Repr

/-- The parameter G3_TABLE (spec/00_scope.md R6, decision D37): the code words of each kind of code, by rising run. Which
runs each kind has is not a parameter (R251 to R255). Log 10. -/
structure G3Table where
  wt : List Code
  wm : List Code
  bt : List Code
  bm : List Code
  xm : List Code
  deriving DecidableEq, Repr

/-- The code word of a row. -/
def CodeRow.code (r : CodeRow) : Code := { len := r.len, val := r.val }

/-- The default G3_TABLE: the tables of ITU-T T.4 (R250). Log 10. -/
def t4Table : G3Table where
  wt := whiteTerminating.map CodeRow.code
  wm := whiteMakeUp.map CodeRow.code
  bt := blackTerminating.map CodeRow.code
  bm := blackMakeUp.map CodeRow.code
  xm := sharedMakeUp.map CodeRow.code

/-- The rows of a kind of code with a table's code words in place of the default ones. -/
def withCodes (rows : List CodeRow) (codes : List Code) : List CodeRow :=
  List.zipWith (fun r c => { r with len := c.len, val := c.val }) rows codes

/-- A table's terminating rows of a colour (R206). -/
def G3Table.terminating (tbl : G3Table) : Color → List CodeRow
  | .white => withCodes whiteTerminating tbl.wt
  | .black => withCodes blackTerminating tbl.bt

/-- A table's make-up rows of a colour, the shared ones among them (R207, R208). -/
def G3Table.makeUp (tbl : G3Table) : Color → List CodeRow
  | .white => withCodes whiteMakeUp tbl.wm ++ withCodes sharedMakeUp tbl.xm
  | .black => withCodes blackMakeUp tbl.bm ++ withCodes sharedMakeUp tbl.xm

/-- The rows of a colour's code set, EOL apart (R123). -/
def G3Table.rows (tbl : G3Table) (c : Color) : List CodeRow := tbl.terminating c ++ tbl.makeUp c

/-- The first code word is a prefix of the second. -/
def Code.isPrefixOf (a b : Code) : Bool := decide (a.len ≤ b.len) && b.val >>> (b.len - a.len) == a.val

/-- A code word of its length that neither begins an EOL nor begins with one: at most ten leading zeros, and a 1 (R123,
R256). -/
def Code.wf (a : Code) : Bool := decide (a.val < 2 ^ a.len) && decide (2 ^ a.len ≤ 2 ^ 11 * a.val)

/-- A G3_TABLE that fits the decoder: a code word for each run of each kind, and each colour's set, with EOL, free of
prefixes (R124, R202, R250). -/
def G3Table.wf (tbl : G3Table) : Bool :=
  tbl.wt.length == whiteTerminating.length && tbl.wm.length == whiteMakeUp.length &&
    tbl.bt.length == blackTerminating.length && tbl.bm.length == blackMakeUp.length &&
    tbl.xm.length == sharedMakeUp.length &&
    [Color.white, Color.black].all fun c =>
      let codes := (tbl.rows c).map CodeRow.code
      codes.all Code.wf && decide (codes.Pairwise fun a b => !a.isPrefixOf b && !b.isPrefixOf a)

/-- The bits read so far, `len` of them and worth `val`, are the first bits of the row's code (R124). -/
def CodeRow.extends (r : CodeRow) (len val : Nat) : Bool :=
  decide (len ≤ r.len) && r.val >>> (r.len - len) == val

/-- ReadCode (spec/41_g3_decode.md R202) after `len` bits worth `val`: take one bit more; at least 11 zeros and a 1 are
EOL, a member of the set is its code, a string of zeros or a proper prefix of a member goes on, and anything else is
no code. -/
def readCode (rows : List CodeRow) (len val : Nat) : List Bool → Except Reject (Instr × List Bool)
  | [] => .error .truncated
  | b :: t =>
    let len' := len + 1
    let val' := 2 * val + b.toNat
    if val' = 1 ∧ 12 ≤ len' then .ok (.eol (len' - 12), t)
    else
      match rows.find? fun r => r.len == len' && r.val == val' with
      | some r => .ok (r.instr, t)
      | none =>
        if val' = 0 ∨ (rows.any fun r => r.extends len' val') then readCode rows len' val' t else .error .badCode

/-- The code at the head of a bit stream at a colour, with the bits after it. -/
def decodeCode (tbl : G3Table) (c : Color) (bits : List Bool) : Except Reject (Instr × List Bool) :=
  readCode (tbl.rows c) 0 0 bits

/-- The low n bits of v, most significant first (R7). -/
def bitsMsb : Nat → Nat → List Bool
  | 0, _ => []
  | n + 1, v => v.testBit n :: bitsMsb n v

/-- The row of a code instruction in the table, white set first. -/
def codeRow? (tbl : G3Table) (i : Instr) : Option CodeRow :=
  (tbl.rows .white ++ tbl.rows .black).find? fun r => decide (r.instr = i)

/-- The bits of a Group-3 code; EOL is its fill, eleven zeros and a 1 (R256). -/
def encodeCode (tbl : G3Table) : Instr → List Bool
  | .eol fill => List.replicate (fill + 11) false ++ [true]
  | i =>
    match codeRow? tbl i with
    | some r => bitsMsb r.len r.val
    | none => []

/-- The length in bits of a code instruction. -/
def G3Table.codeLength (tbl : G3Table) (i : Instr) : Nat := (encodeCode tbl i).length

/-! ### Packed pixels (R125) -/

/-- A byte from two nibbles, the first in bits 7:4 (R125). -/
def nibbles (h l : Nibble) : Byte := h ++ l

/-- The packed bytes at the head of a row that hold the next pixel, with the bytes after them (R125). -/
def decodePixel (d : Depth) (bs : List Byte) : Except Reject (Instr × List Byte) :=
  match d, bs with
  | .d1, e :: t => .ok (.pix1 e, t)
  | .d4, e :: t => .ok (.pix4 (e.extractLsb' 4 4) (e.extractLsb' 0 4), t)
  | .d8, v :: t => .ok (.pix8 v, t)
  | .d24, b :: g :: r :: t => .ok (.pix24 b g r, t)
  | .d32, b :: g :: r :: x :: t => .ok (.pix32 b g r x, t)
  | _, _ => .error .truncated

/-! ### The decoder and the encoder -/

/-- The decoder: the instruction that a context reads from encoded words, which hold exactly one. -/
def decode (tbl : G3Table) (ctx : Context) (w : Words) : Except Reject Instr :=
  match ctx, w with
  | .command, .command w => decodeCommand w
  | .rle v, .bytes bs => (decodeUnit v bs).map Prod.fst
  | .emit8, .bytes bs => (decodeEmit .rle8 bs).map Prod.fst
  | .emit4, .bytes bs => (decodeEmit .rle4 bs).map Prod.fst
  | .g3 c, .code bits => (decodeCode tbl c bits).map Prod.fst
  | .pix d, .bytes bs => (decodePixel d bs).map Prod.fst
  | _, _ => .error .wrongFormat

/-- The encoder, written from the same rules (R111, R115 to R120, R123, R125, R286 to R289). -/
def encode (tbl : G3Table) : Instr → Words
  | .unpack1 f => .command (commandWord 0x0 0 f)
  | .unpack4 f => .command (commandWord 0x0 1 f)
  | .unpack8 f => .command (commandWord 0x0 2 f)
  | .unpack24 f => .command (commandWord 0x0 3 f)
  | .unpack32 f => .command (commandWord 0x0 4 f)
  | .decRle8 d f => .command (commandWord 0x1 d.code f)
  | .decRle4 d f => .command (commandWord 0x2 d.code f)
  | .decHuff d f => .command (commandWord 0x3 d.code f)
  | .decRle24 d f => .command (commandWord 0x4 d.code f)
  | .encRle8 d f => .command (commandWord 0x9 d.code f)
  | .encRle4 d f => .command (commandWord 0xA d.code f)
  | .reservedOp5 b f => .command (commandWord 0x5 b f)
  | .reservedOp6 b f => .command (commandWord 0x6 b f)
  | .reservedOp7 b f => .command (commandWord 0x7 b f)
  | .reservedOp8 b f => .command (commandWord 0x8 b f)
  | .reservedOpB b f => .command (commandWord 0xB b f)
  | .reservedOpC b f => .command (commandWord 0xC b f)
  | .reservedOpD b f => .command (commandWord 0xD b f)
  | .reservedOpE b f => .command (commandWord 0xE b f)
  | .reservedOpF b f => .command (commandWord 0xF b f)
  | .reservedBpp5 o f => .command (commandWord o.code 5 f)
  | .reservedBpp6 o f => .command (commandWord o.code 6 f)
  | .reservedBpp7 o f => .command (commandWord o.code 7 f)
  | .rle8Run c v => .bytes [c, v]
  | .rle4Run c h l => .bytes [c, nibbles h l]
  | .rle24Run c b0 b1 b2 => .bytes [c, b0, b1, b2]
  | .rle8Eol | .rle4Eol | .rle24Eol | .encEol => .bytes [0, 0]
  | .rle8Eob | .rle4Eob | .rle24Eob | .encEob => .bytes [0, 1]
  | .rle8Delta dx dy | .rle4Delta dx dy | .rle24Delta dx dy => .bytes [0, 2, dx, dy]
  | .rle8Abs n data | .rle4Abs n data | .rle24Abs n data | .encAbs n data => .bytes (absBytes n data)
  | .encRun c v => .bytes [c, v]
  | .encShort c v none => .bytes [c, v]
  | .encShort c v (some w) => .bytes [c, v, 1, w]
  | .pix1 e => .bytes [e]
  | .pix4 h l => .bytes [nibbles h l]
  | .pix8 v => .bytes [v]
  | .pix24 b g r => .bytes [b, g, r]
  | .pix32 b g r x => .bytes [b, g, r, x]
  -- every instruction left is a Group-3 code (`Laws/PerInstr.lean` shows each of them in the table)
  | i => .code (encodeCode tbl i)

/-- The context that reads an instruction; the white set for the codes of both colours. An emitted absolute run or
short literal is RLE4's when its data says so. -/
def Instr.context : Instr → Context
  | .unpack1 _ | .unpack4 _ | .unpack8 _ | .unpack24 _ | .unpack32 _ => .command
  | .decRle8 _ _ | .decRle4 _ _ | .decHuff _ _ | .decRle24 _ _ | .encRle8 _ _ | .encRle4 _ _ => .command
  | .reservedOp5 _ _ | .reservedOp6 _ _ | .reservedOp7 _ _ | .reservedOp8 _ _ | .reservedOpB _ _ => .command
  | .reservedOpC _ _ | .reservedOpD _ _ | .reservedOpE _ _ | .reservedOpF _ _ => .command
  | .reservedBpp5 _ _ | .reservedBpp6 _ _ | .reservedBpp7 _ _ => .command
  | .rle8Run _ _ | .rle8Eol | .rle8Eob | .rle8Delta _ _ | .rle8Abs _ _ => .rle .rle8
  | .rle4Run _ _ _ | .rle4Eol | .rle4Eob | .rle4Delta _ _ | .rle4Abs _ _ => .rle .rle4
  | .rle24Run _ _ _ _ | .rle24Eol | .rle24Eob | .rle24Delta _ _ | .rle24Abs _ _ => .rle .rle24
  | .encAbs n data => if data.length = n.toNat then .emit8 else .emit4
  | .encRun _ _ | .encShort _ _ _ | .encEol | .encEob => .emit8
  | .wt0 | .wt1 | .wt2 | .wt3 | .wt4 | .wt5 | .wt6 | .wt7 | .wt8 | .wt9
  | .wt10 | .wt11 | .wt12 | .wt13 | .wt14 | .wt15 | .wt16 | .wt17 | .wt18 | .wt19
  | .wt20 | .wt21 | .wt22 | .wt23 | .wt24 | .wt25 | .wt26 | .wt27 | .wt28 | .wt29
  | .wt30 | .wt31 | .wt32 | .wt33 | .wt34 | .wt35 | .wt36 | .wt37 | .wt38 | .wt39
  | .wt40 | .wt41 | .wt42 | .wt43 | .wt44 | .wt45 | .wt46 | .wt47 | .wt48 | .wt49
  | .wt50 | .wt51 | .wt52 | .wt53 | .wt54 | .wt55 | .wt56 | .wt57 | .wt58 | .wt59
  | .wt60 | .wt61 | .wt62 | .wt63 | .wm64 | .wm128 | .wm192 | .wm256 | .wm320 | .wm384
  | .wm448 | .wm512 | .wm576 | .wm640 | .wm704 | .wm768 | .wm832 | .wm896 | .wm960 | .wm1024
  | .wm1088 | .wm1152 | .wm1216 | .wm1280 | .wm1344 | .wm1408 | .wm1472 | .wm1536 | .wm1600 | .wm1664
  | .wm1728 => .g3 .white
  | .bt0 | .bt1 | .bt2 | .bt3 | .bt4 | .bt5 | .bt6 | .bt7 | .bt8 | .bt9
  | .bt10 | .bt11 | .bt12 | .bt13 | .bt14 | .bt15 | .bt16 | .bt17 | .bt18 | .bt19
  | .bt20 | .bt21 | .bt22 | .bt23 | .bt24 | .bt25 | .bt26 | .bt27 | .bt28 | .bt29
  | .bt30 | .bt31 | .bt32 | .bt33 | .bt34 | .bt35 | .bt36 | .bt37 | .bt38 | .bt39
  | .bt40 | .bt41 | .bt42 | .bt43 | .bt44 | .bt45 | .bt46 | .bt47 | .bt48 | .bt49
  | .bt50 | .bt51 | .bt52 | .bt53 | .bt54 | .bt55 | .bt56 | .bt57 | .bt58 | .bt59
  | .bt60 | .bt61 | .bt62 | .bt63 | .bm64 | .bm128 | .bm192 | .bm256 | .bm320 | .bm384
  | .bm448 | .bm512 | .bm576 | .bm640 | .bm704 | .bm768 | .bm832 | .bm896 | .bm960 | .bm1024
  | .bm1088 | .bm1152 | .bm1216 | .bm1280 | .bm1344 | .bm1408 | .bm1472 | .bm1536 | .bm1600 | .bm1664
  | .bm1728 => .g3 .black
  | .xm1792 | .xm1856 | .xm1920 | .xm1984 | .xm2048 | .xm2112 | .xm2176 | .xm2240 | .xm2304 | .xm2368
  | .xm2432 | .xm2496 | .xm2560 => .g3 .white
  | .eol _ => .g3 .white
  | .pix1 _ => .pix .d1
  | .pix4 _ _ => .pix .d4
  | .pix8 _ => .pix .d8
  | .pix24 _ _ _ => .pix .d24
  | .pix32 _ _ _ _ => .pix .d32

/-! ### The words of the opcode table

The table numbers a row's bits as one number, its last bit bit 0, and says neither which context reads it nor (for a
Group-3 code) how many leading zeros it has. Several rows so share one number; the choice below is log 14. -/

/-- A number that is the command word of a CMD row, all its free fields 0 (R111). -/
def isCommandRow (w : Nat) : Bool :=
  w < 2 ^ 11 && w % 16 == 1 &&
    match Operation.ofCode (opOfWord (.ofNat 32 w)) with
    | none => decide (w < 2 ^ 8)
    | some o =>
      match Depth.ofCode (bppOfWord (.ofNat 32 w)) with
      | none => o == .unpack
      | some d => o.depth?.all (· == d)

/-- The Group-3 rows whose code is worth w and fits nbits, the white set first. -/
def tableCodes (nbits w : Nat) : List (Color × CodeRow) :=
  let rows := (t4Table.rows .white).map (Prod.mk Color.white) ++ (t4Table.rows .black).map (Prod.mk Color.black)
  rows.filter fun cr => cr.2.val == w && decide (cr.2.len ≤ nbits)

/-- The k bytes of a number, most significant first, as the table writes them. -/
def bytesMsb (k w : Nat) : List Byte := ((List.range k).reverse).map fun n => .ofNat 8 (w >>> (8 * n))

/-- A Group-3 row's context and words. -/
def codeWords (cr : Color × CodeRow) : Context × Words := (.g3 cr.1, .code (bitsMsb cr.2.len cr.2.val))

/-- An RLE8 unit from its two head bytes, its operand bytes 0. -/
def unitWords (w : Nat) : Context × Words :=
  let c := BitVec.ofNat 8 (w >>> 8)
  let d := BitVec.ofNat 8 w
  (.rle .rle8, .bytes ([c, d] ++ List.replicate (unitLength .rle8 c d - 2) 0))

/-- The context and the words that a number of the opcode table stands for, the bits above it 0. In order: a CMD row; a
code whose length takes nbits in whole bytes; for two bytes, a run or one of the escapes EOL, EOB, DELTA; a shorter
code; an absolute run; a pixel or an RLE24 run. -/
def tableWords (nbits w : Nat) : Context × Words :=
  if isCommandRow w then (.command, .command (.ofNat 32 w))
  else
    let codes := tableCodes nbits w
    match codes.find? fun cr => decide (nbits < cr.2.len + 8) with
    | some cr => codeWords cr
    | none =>
      if 8 < nbits ∧ nbits ≤ 16 ∧ (256 ≤ w ∨ w ≤ 2) then unitWords w
      else
        match codes.head? with
        | some cr => codeWords cr
        | none =>
          if nbits ≤ 8 then (.pix .d8, .bytes (bytesMsb 1 w))
          else if nbits ≤ 16 then unitWords w
          else if nbits ≤ 24 then (.pix .d24, .bytes (bytesMsb 3 w))
          else if w < 2 ^ 24 then (.pix .d32, .bytes (bytesMsb 4 w))
          else (.rle .rle24, .bytes (bytesMsb 4 w))

/-- The instruction that the decoder reads from a word of the opcode table, which lists the default codes. -/
def decodeTableWord (nbits w : Nat) : Option Instr :=
  match decode t4Table (tableWords nbits w).1 (tableWords nbits w).2 with
  | .ok i => some i
  | .error _ => none

end Sys2Proof
end

