-- ==== Sys2Proof/Machine/State.lean ====
section
/-!
DEFINITION. The state of the scanline codec block as plain data: the registers of the window (spec/10_state.md R42), the
hidden engine state (R61), memory (spec/20_memory.md R80), and the platform's side (pending host accesses, reset). Also
the reasons a step can stop, and the state after reset.
-/

namespace Sys2Proof.Machine

/-- Why the machine stops. The spec has no trap: an error of an operation is a next state with an error code. -/
inductive Fault
  /-- A stream unit, code, emitted unit or pixel was executed in a state in which no operation of its kind runs with a
  configuration that passed the START checks. Raised by the meanings of the units and by the fetch. The spec gives it no
  effect and no run reaches it, so it is safe. Log 13. -/
  | outsideOperation
  deriving DecidableEq, Repr

/-- Why a step has no meaning. -/
inductive Refusal
  /-- The instruction has no meaning yet. Raised by `exec` alone; safe. -/
  | notModelled (mnemonic : String)
  /-- A host access to the register window that is not an aligned 32-bit access: "a model refuses it"
  (spec/20_memory.md R85). Raised by the host port alone; safe. Log 12. -/
  | registerAccessShape
  deriving DecidableEq, Repr

/-- The error codes that STATUS.ERRCODE can hold (spec/60_exceptions.md R400). -/
inductive ErrCode
  | none
  | truncated
  | widthOverflow
  | bufferOverflow
  | g3BadCode
  | g3NoLeadingEol
  | g3MakeupAtEol
  | encCountMismatch
  | palIndexRange
  | unsupported
  | badConfig
  deriving DecidableEq, Repr

/-- The stored fields of CTRL (R43). START and the reserved bits hold nothing. -/
structure Ctrl where
  op : BitVec 4
  bpp : BitVec 3
  flags : CmdFlags
  deriving DecidableEq, Repr

/-- The stored fields of STATUS (R45). BUSY is the engine's phase (R61) and ERR follows ERRCODE (R63). -/
structure Status where
  done : Bool
  eobi : Bool
  errcode : ErrCode
  deriving DecidableEq, Repr

/-- The configuration registers (R47 to R54). -/
structure Cfg where
  width : Word
  height : Word
  inBase : Word
  inLen : Word
  outBase : Word
  outLen : Word
  palBase : Word
  palCount : Word
  deriving DecidableEq, Repr

/-- The progress registers (R55 to R58). -/
structure Progress where
  inPos : Word
  outPos : Word
  curX : Word
  curY : Word
  deriving DecidableEq, Repr

/-- Where the engine is between two of its atomic steps: R61's Idle, and within Busy the points of
spec/30_encoding.md R114. Log 25. -/
inductive Phase
  /-- No operation runs: BUSY = 0. -/
  | idle
  /-- START was written; the checks come next. -/
  | start
  /-- The zero-fill writes output byte k next. -/
  | fill (k : Word)
  /-- The body of the operation runs. -/
  | body
  deriving DecidableEq, Repr

/-- The hidden engine state (R61). -/
structure Engine where
  phase : Phase
  /-- RLE decode: the next input offset. -/
  p : Word
  /-- The decoders' column, and the column of the unpacker's next pixel. -/
  x : Word
  /-- The decoders' row, and the file row that the unpacker reads. -/
  y : Word
  /-- Huffman decode: bits of input consumed by complete codes. -/
  q : BitVec 35
  color : Color
  started : Bool
  sawCode : Bool
  eolRun : BitVec 3
  pend : Word
  /-- Encoders: the row. -/
  r : Word
  /-- Encoders: the pixel (RLE8) or byte (RLE4) index within the row. -/
  i : Word
  /-- Encoders: the pixels of the row covered so far. -/
  cnt : Word
  /-- Unpacker: the image row being written. -/
  j : Word
  /-- Encoders and unpacker: the next output offset. -/
  o : Word
  deriving DecidableEq, Repr

/-- Something that lands between two engine steps (spec/20_memory.md R90): a host access, a change of the reset input,
or a turn of the engine. Log 1. -/
inductive Input
  /-- The host reads `size` bytes at a window offset. -/
  | readReg (offset : Byte) (size : Nat)
  /-- The host writes `size` bytes at a window offset. -/
  | writeReg (offset : Byte) (size : Nat) (v : Word)
  /-- The host reads a byte of memory. -/
  | readMem (a : Word)
  /-- The host writes a byte of memory. -/
  | writeMem (a : Word) (v : Byte)
  /-- The host looks at the interrupt line (spec/10_state.md R65). -/
  | readIrq
  /-- The platform asserts (true) or deasserts (false) reset (spec/70_reset_and_hazards.md R450). -/
  | reset (asserted : Bool)
  /-- The engine takes a step before the host's next access. -/
  | engine
  deriving DecidableEq, Repr

/-- A region of memory: len bytes from an address on (spec/20_memory.md R81). -/
structure Region where
  base : Word
  len : Word
  deriving DecidableEq, Repr

/-- The platform's side of the block. All but `inReset` are the model's own fields (INVENTORY.md, State). -/
structure Platform where
  /-- The reset input is asserted (R450). -/
  inReset : Bool
  /-- What lands next, first first; when it is empty the engine moves. Log 1. -/
  inputs : List Input
  /-- What the last host read returned. Log 22. -/
  readData : Word
  /-- The addresses that a host access breached while BUSY (spec/20_memory.md R92). Log 7. -/
  races : List Word
  /-- The OUT regions of the operations that have ended, but whose end the host has not observed
  (spec/70_reset_and_hazards.md R460). Log 30. -/
  unseen : List Region
  /-- The number of the next free value. Log 7. -/
  draws : Nat
  deriving DecidableEq, Repr

/-- Memory: the bytes that something has written, by rising address. A byte that is not listed has no known value; what
it reads as is `State.memByte` (Machine/Ops.lean, log 6). -/
abbrev Memory := List Host.Cell

/-- The canonical form of memory: addresses strictly rising, each inside the address space (R80). -/
def Memory.wf : Memory → Bool
  | [] => true
  | [c] => decide (c.1 < Config.memSize)
  | c :: d :: m => decide (c.1 < d.1) && Memory.wf (d :: m)

/-- The machine. -/
structure State where
  ctrl : Ctrl
  status : Status
  cfg : Cfg
  pos : Progress
  eng : Engine
  mem : Memory
  plat : Platform
  /-- The parameter G3_TABLE (spec/00_scope.md R6): no rule writes it. Log 10. -/
  g3 : G3Table
  deriving DecidableEq, Repr

/-- CTRL after reset (R451). -/
def Ctrl.zero : Ctrl :=
  { op := 0, bpp := 0, flags := { palfmt := false, outfmt := false, a32 := false, irqEn := false } }

/-- STATUS after reset (R451) and after START (R44). -/
def Status.zero : Status := { done := false, eobi := false, errcode := .none }

/-- The configuration registers after reset (R451). -/
def Cfg.zero : Cfg :=
  { width := 0, height := 0, inBase := 0, inLen := 0, outBase := 0, outLen := 0, palBase := 0, palCount := 0 }

/-- The progress registers after reset (R451) and after START (R44). -/
def Progress.zero : Progress := { inPos := 0, outPos := 0, curX := 0, curY := 0 }

/-- An idle engine whose hidden state is all zero: the model's choice for State.reset (DESIGN CHOICE, log 9). -/
def Engine.zero : Engine :=
  { phase := .idle, p := 0, x := 0, y := 0, q := 0, color := .white, started := false, sawCode := false, eolRun := 0,
    pend := 0, r := 0, i := 0, cnt := 0, j := 0, o := 0 }

/-- The block right after reset (R67, R451): every register 0, the engine idle. Nothing is known of memory, the host has
nothing pending, and G3_TABLE is the default (logs 1, 6, 9, 10). -/
def State.reset : State :=
  { ctrl := .zero, status := .zero, cfg := .zero, pos := .zero, eng := .zero, mem := [],
    plat := { inReset := false, inputs := [], readData := 0, races := [], unseen := [], draws := 0 }, g3 := t4Table }

end Sys2Proof.Machine
end

