-- ==== Sys2Proof/Machine/Flags.lean ====
section
/-!
DEFINITION. The computed flags and the packed views of the registers: STATUS and CTRL as the host reads them
(spec/10_state.md R43, R45), BUSY, ERR and IRQ (R63, R65).
-/

namespace Sys2Proof.Machine

/-- The number of an error code (spec/60_exceptions.md R400). -/
def ErrCode.byte : ErrCode → Byte
  | .none => 0x00
  | .truncated => 0x01
  | .widthOverflow => 0x02
  | .bufferOverflow => 0x03
  | .g3BadCode => 0x04
  | .g3NoLeadingEol => 0x05
  | .g3MakeupAtEol => 0x06
  | .encCountMismatch => 0x07
  | .palIndexRange => 0x08
  | .unsupported => 0x09
  | .badConfig => 0x0A

/-- STATUS.BUSY: 1 from START until the operation ends; 0 iff the engine is idle (R45, R61). -/
def State.busy (s : State) : Bool := s.eng.phase != .idle

/-- STATUS.ERR: reads as ERRCODE ≠ 0 (R45). -/
def State.err (s : State) : Bool := s.status.errcode != .none

/-- The interrupt line (R65, spec/60_exceptions.md R410). -/
def State.irq (s : State) : Bool := s.ctrl.flags.irqEn && s.status.done

/-- STATUS as the host reads it: BUSY, DONE, ERR, EOBI in bits 0 to 3, ERRCODE in bits 15:8, the rest 0 (R45). -/
def State.statusWord (s : State) : Word :=
  bitWord s.busy ||| (bitWord s.status.done <<< 1) ||| (bitWord s.err <<< 2) ||| (bitWord s.status.eobi <<< 3) |||
    (s.status.errcode.byte.setWidth 32 <<< 8)

/-- CTRL as the host reads it: the stored fields, with START and the reserved bits 0 (R44). -/
def State.ctrlWord (s : State) : Word := packCtrl s.ctrl.op s.ctrl.bpp s.ctrl.flags

/-- The fields that CTRL takes from a written value; the reserved bits are dropped (R44). -/
def Ctrl.ofWord (w : Word) : Ctrl := { op := opOfWord w, bpp := bppOfWord w, flags := flagsOfWord w }

end Sys2Proof.Machine
end

