-- ==== Sys2Proof/Machine/Operands.lean ====
section
/-!
DEFINITION. The operand forms: exact and saturating arithmetic (spec/00_scope.md R7), the row stride (R9), the regions IN,
OUT and PAL (spec/20_memory.md R81, R88, R89), the bytes and bits an operation reads (R8, spec/41_g3_decode.md R201) and
the START checks over them (spec/60_exceptions.md R403).
-/

namespace Sys2Proof.Machine

/-! ### Arithmetic (R7, R9) -/

/-- min(v, 2^32 − 1) (R7). -/
def sat32 (v : Nat) : Nat := min v (2 ^ 32 - 1)

/-- The row stride S(b, W) of a packed buffer (R9). -/
def stride (d : Depth) (width : Nat) : Nat := (width * d.bits + 31) / 32 * 4

/-- The bytes of an output pixel: C of spec/44_unpack.md. -/
def outPixelSize (f : CmdFlags) : Nat := if f.outfmt then 4 else 3

/-- The bytes of a colour-table entry: E of R331. -/
def palEntrySize (f : CmdFlags) : Nat := if f.palfmt then 4 else 3

/-- The entries of the colour table: N of R331. -/
def palEntries (d : Depth) (g : Cfg) : Nat := if g.palCount = 0 then 2 ^ d.bits else g.palCount.toNat

/-- UNPACK at 1, 4 or 8 bpp reads the colour table, and no other operation does (R53, R331). -/
def palUsed (op : Operation) (d : Depth) : Bool :=
  op == .unpack && (d == .d1 || d == .d4 || d == .d8)

/-! ### Regions (R81, R88, R89) -/

/-- The address lies in the region of len bytes at base. -/
def inRegion (base len a : Nat) : Bool := decide (base ≤ a) && decide (a < base + len)

/-- The two regions share a byte; a region of length 0 overlaps nothing (R89). -/
def overlaps (base len base' len' : Nat) : Bool :=
  decide (0 < len) && decide (0 < len') && decide (base < base' + len') && decide (base' < base + len)

/-- The address lies in the input region. -/
def State.inIn (s : State) (a : Nat) : Bool := inRegion s.cfg.inBase.toNat s.cfg.inLen.toNat a

/-- The address lies in the output region. -/
def State.inOut (s : State) (a : Nat) : Bool := inRegion s.cfg.outBase.toNat s.cfg.outLen.toNat a

/-- The address lies in the colour table of an operation that reads it. -/
def State.inPal (s : State) (a : Nat) : Bool :=
  match Operation.ofCode s.ctrl.op, Depth.ofCode s.ctrl.bpp with
  | some op, some d =>
    palUsed op d && inRegion s.cfg.palBase.toNat (palEntries d s.cfg * palEntrySize s.ctrl.flags) a
  | _, _ => false

/-! ### The START checks (R403) -/

/-- A legal WIDTH or HEIGHT (R47, R48). -/
def legalDim (v : Word) : Bool := decide (1 ≤ v.toNat) && decide (v.toNat ≤ Config.maxDim)

/-- Checks 3 to 9 of R403 in its order, each with the code it raises; checks 1 and 2 are the reserved command words. -/
def configChecks (op : Operation) (d : Depth) (f : CmdFlags) (g : Cfg) : List (Bool × ErrCode) :=
  let inBase := g.inBase.toNat
  let inLen := g.inLen.toNat
  let outBase := g.outBase.toNat
  let outLen := g.outLen.toNat
  let palBase := g.palBase.toNat
  let palLen := palEntries d g * palEntrySize f
  let used := palUsed op d
  [(op.depth?.any (· != d), .badConfig),
   (!legalDim g.width || !legalDim g.height, .badConfig),
   (used && decide (Config.palMax < g.palCount.toNat), .badConfig),
   (decide (Config.memSize < inBase + inLen) || decide (Config.memSize < outBase + outLen) ||
      (used && decide (Config.memSize < palBase + palLen)), .badConfig),
   (overlaps outBase outLen inBase inLen || (used && overlaps outBase outLen palBase palLen), .badConfig),
   (op == .unpack && outLen != g.width.toNat * g.height.toNat * outPixelSize f, .badConfig),
   ((op == .unpack || op == .encRle8 || op == .encRle4) && decide (inLen < stride d g.width.toNat * g.height.toNat),
      .truncated)]

/-- The code of the first failing check, if one fails (R403). -/
def firstFailing (checks : List (Bool × ErrCode)) : Option ErrCode := (checks.find? Prod.fst).map Prod.snd

/-- The error that START ends with for a legal command word, if a check fails (R403). -/
def configError (op : Operation) (d : Depth) (f : CmdFlags) (g : Cfg) : Option ErrCode :=
  firstFailing (configChecks op d f g)

/-! ### Which operation runs -/

/-- The read cursors lie inside what the operation reads: p and q inside the input (R62), the encoder's row and the
unpacker's pixel inside the image. -/
def State.cursorOk (s : State) : Operation → Bool
  | .decRle8 | .decRle4 | .decRle24 => decide (s.eng.p.toNat ≤ s.cfg.inLen.toNat)
  | .decHuff => decide (s.eng.q.toNat ≤ 8 * s.cfg.inLen.toNat)
  | .encRle8 | .encRle4 => decide (s.eng.r.toNat < s.cfg.height.toNat)
  | .unpack =>
    decide (s.eng.x.toNat < s.cfg.width.toNat) && decide (s.eng.y.toNat + s.eng.j.toNat + 1 = s.cfg.height.toNat)

/-- The body of operation op runs at depth d, with a configuration that passes the START checks. No address that its
rules name then lies outside memory (R88). -/
def State.running (s : State) (op : Operation) (d : Depth) : Bool :=
  s.eng.phase == .body && s.ctrl.op == op.code && s.ctrl.bpp == d.code &&
    configError op d s.ctrl.flags s.cfg == none && s.cursorOk op

end Sys2Proof.Machine
end

