-- ==== Sys2Proof/Machine/Ops.lean ====
section
/-!
DEFINITION. The named operations over memory, the regions and the registers: reading and writing a byte (spec/00_scope.md
R8), the race rule (spec/20_memory.md R92), ending an operation with an error or with success (spec/60_exceptions.md R401,
R402), the acknowledgement that follows (R410, R411), and reset (spec/70_reset_and_hazards.md R450).
-/

namespace Sys2Proof.Machine

/-! ### Memory (spec/20_memory.md R80, R84) -/

/-- The byte that memory lists at an address, if it lists one. -/
def Memory.get? : Memory → Nat → Option Byte
  | [], _ => none
  | (b, w) :: m, a => if a = b then some w else Memory.get? m a

/-- Memory with byte v at address a, in the canonical form. -/
def Memory.write : Memory → Nat → Byte → Memory
  | [], a, v => [(a, v)]
  | (b, w) :: m, a, v =>
    if a < b then (a, v) :: (b, w) :: m else if a = b then (a, v) :: m else (b, w) :: Memory.write m a v

/-- The byte at a memory address. A byte that nothing has written holds any value, fixed by its address (log 6). -/
def State.memByte (s : State) (a : Nat) : Byte :=
  match s.mem.get? a with
  | some v => v
  | none => Config.powerOnByte a

/-- MemWrite(a, 1, v) (R8). -/
def State.memWrite (s : State) (a : Nat) (v : Byte) : State := { s with mem := s.mem.write a v }

/-! ### Races (R92) -/

/-- A host access has breached the region rule at this address during the running operation. -/
def State.raced (s : State) (a : Nat) : Bool := s.plat.races.any fun w => w.toNat == a

/-- MemRead(a, 1) as the engine makes it: a raced byte is a draw of its own at each place of the step that reads it (R92,
spec/70_reset_and_hazards.md R465, log 7). -/
def State.engRead (s : State) (place a : Nat) : Byte :=
  if s.raced a then Config.raceByte s.plat.draws place a else s.memByte a

/-- Fresh draws for the engine's next step; nothing changes while no address is raced on. -/
def State.drawn (s : State) : State :=
  { s with plat := { s.plat with draws := s.plat.draws + s.plat.races.length } }

/-- At the end of an operation each raced byte of OUT holds any value, and no race is left: fresh draws, that no read has
had (R92, log 7). -/
def State.settle (s : State) : State :=
  let t := s.drawn
  { t with
    mem := (t.plat.races.filter fun w => t.inOut w.toNat).foldl
      (fun m w => m.write w.toNat (Config.raceByte t.plat.draws 0 w.toNat)) t.mem
    plat := { t.plat with races := [] } }

/-! ### The regions (R8) -/

/-- In(k), read at a place of the step. -/
def State.inRead (s : State) (place k : Nat) : Byte := s.engRead place (s.cfg.inBase.toNat + k)

/-- In(k), where the step reads each input byte once: place 0. -/
def State.inByte (s : State) (k : Nat) : Byte := s.inRead 0 k

/-- Pal(k): place 1. -/
def State.palByte (s : State) (k : Nat) : Byte := s.engRead 1 (s.cfg.palBase.toNat + k)

/-- A read of output byte k, for the read-modify-write of R84: place 2. -/
def State.outByte (s : State) (k : Nat) : Byte := s.engRead 2 (s.cfg.outBase.toNat + k)

/-- Out(k) <- v. -/
def State.outWrite (s : State) (k : Nat) (v : Byte) : State := s.memWrite (s.cfg.outBase.toNat + k) v

/-- Out(k) <- v0, Out(k + 1) <- v1, ... in order. -/
def State.outWriteList (s : State) (k : Nat) : List Byte → State
  | [] => s
  | v :: vs => (s.outWrite k v).outWriteList (k + 1) vs

/-- The n input bytes from In(k) on. -/
def State.inBytes (s : State) (k : Nat) : Nat → List Byte
  | 0 => []
  | n + 1 => s.inByte k :: s.inBytes (k + 1) n

/-- Bit(k): input bit k, most significant bit of its byte first (spec/41_g3_decode.md R201). -/
def State.inBit (s : State) (k : Nat) : Bool := (s.inByte (k / 8)).getLsbD (7 - k % 8)

/-- The n input bits from Bit(k) on. -/
def State.inBits (s : State) (k : Nat) : Nat → List Bool
  | 0 => []
  | n + 1 => s.inBit k :: s.inBits (k + 1) n

/-! ### Ending an operation (spec/60_exceptions.md R401, R402, R411) -/

/-- What every end of an operation does: BUSY ← 0 and DONE ← 1 (R401, R402); the races are settled, and OUT stays lent
until the host observes the end (spec/70_reset_and_hazards.md R460, log 30). -/
def State.endOperation (s : State) : State :=
  let t := s.settle
  { t with
    status := { t.status with done := true }
    eng := { t.eng with phase := .idle }
    plat := { t.plat with unseen := { base := t.cfg.outBase, len := t.cfg.outLen } :: t.plat.unseen } }

/-- `raise Err(c)`: the operation ends with an error code; the progress registers keep the last completed step's values
and memory every write before the failing unit (R401, R405). -/
def State.raise (s : State) (c : ErrCode) : State :=
  let t := s.endOperation
  { t with status := { t.status with errcode := c } }

/-- `finish()`: the operation ends with success (R402). -/
def State.finish (s : State) : State := s.endOperation

/-- The return from a completion: a 1 written to STATUS.DONE clears it, and nothing else (spec/10_state.md R46). -/
def State.acknowledge (s : State) : State := { s with status := { s.status with done := false } }

/-- A unit of operation op at depth d takes effect only while the body of that operation runs (log 13). -/
def State.within (s : State) (op : Operation) (d : Depth) (effect : State) : Host.Outcome State Fault Refusal :=
  if s.running op d then .next effect else .fault .outsideOperation

/-! ### Reset (spec/70_reset_and_hazards.md R450) -/

/-- The hidden engine state after a reset: idle, and otherwise unspecified (spec/10_state.md R67, log 8). -/
def Engine.unspecified (n : Nat) : Engine :=
  let v := Config.unspecified n
  { phase := .idle, p := .ofNat 32 (v 0), x := .ofNat 32 (v 1), y := .ofNat 32 (v 2), q := .ofNat 35 (v 3),
    color := if v 4 % 2 = 0 then .white else .black, started := v 5 % 2 == 1, sawCode := v 6 % 2 == 1,
    eolRun := .ofNat 3 (v 7), pend := .ofNat 32 (v 8), r := .ofNat 32 (v 9), i := .ofNat 32 (v 10),
    cnt := .ofNat 32 (v 11), j := .ofNat 32 (v 12), o := .ofNat 32 (v 13) }

/-- The platform asserts reset: the engine stops at a step boundary and never goes on (R450). Races end here (log 8), and
so does the host's giving up of the regions (log 30). -/
def State.assertReset (s : State) : State :=
  let t := s.settle
  { t with plat := { t.plat with inReset := true, unseen := [] } }

/-- The platform deasserts reset: every register 0, the engine idle, memory as it is (R450). Without a reset asserted
before, nothing happens. -/
def State.deassertReset (s : State) : State :=
  if s.plat.inReset then
    { s with
      ctrl := .zero, status := .zero, cfg := .zero, pos := .zero, eng := .unspecified s.plat.draws
      plat := { s.plat with inReset := false, draws := s.plat.draws + 1 } }
  else s

end Sys2Proof.Machine
end

