-- ==== Sys2Proof/Machine/HostPort.lean ====
section
/-!
DEFINITION. The host's side: the register window (spec/10_state.md R42 to R60), the host's memory accesses with the race
rule (spec/20_memory.md R92), and the platform's reset input. Each `Input` has its effect here, between engine steps.
-/

namespace Sys2Proof.Machine

/-! ### The register window -/

/-- What a register reads as, by window offset; a reserved offset reads 0 (R42, R59). -/
def State.regValue (s : State) (offset : Nat) : Word :=
  match offset with
  | 0x00 => s.ctrlWord
  | 0x04 => s.statusWord
  | 0x08 => s.cfg.width
  | 0x0C => s.cfg.height
  | 0x10 => s.cfg.inBase
  | 0x14 => s.cfg.inLen
  | 0x18 => s.cfg.outBase
  | 0x1C => s.cfg.outLen
  | 0x20 => s.cfg.palBase
  | 0x24 => s.cfg.palCount
  | 0x28 => s.pos.inPos
  | 0x2C => s.pos.outPos
  | 0x30 => s.pos.curX
  | 0x34 => s.pos.curY
  | _ => 0

/-- The START action of R44 (3): STATUS and the progress registers are cleared and BUSY is set. -/
def State.startAction (s : State) : State :=
  { s with status := .zero, pos := .zero, eng := { s.eng with phase := .start } }

/-- A host write to CTRL (R44): ignored while BUSY; else the fields are taken, and START = 1 starts the operation. -/
def State.writeCtrl (s : State) (v : Word) : State :=
  if s.busy then s
  else
    let s := { s with ctrl := Ctrl.ofWord v }
    if v.getLsbD 0 then s.startAction else s

/-- A host write to STATUS: bit 1 clears DONE, every other bit is ignored (R46). -/
def State.writeStatus (s : State) (v : Word) : State := if v.getLsbD 1 then s.acknowledge else s

/-- A host write to a configuration register; a read-only or reserved offset is ignored (R42, R59). -/
def Cfg.write (g : Cfg) (offset : Nat) (v : Word) : Cfg :=
  match offset with
  | 0x08 => { g with width := v }
  | 0x0C => { g with height := v }
  | 0x10 => { g with inBase := v }
  | 0x14 => { g with inLen := v }
  | 0x18 => { g with outBase := v }
  | 0x1C => { g with outLen := v }
  | 0x20 => { g with palBase := v }
  | 0x24 => { g with palCount := v }
  | _ => g

/-- A host register write (R42); the configuration registers ignore it while BUSY (R60). -/
def State.writeReg (s : State) (offset : Nat) (v : Word) : State :=
  match offset with
  | 0x00 => s.writeCtrl v
  | 0x04 => s.writeStatus v
  | offset => if s.busy then s else { s with cfg := s.cfg.write offset v }

/-- The shape that the window accepts: an aligned 32-bit access (spec/20_memory.md R85). -/
def regAccessOk (offset : Byte) (size : Nat) : Bool := size == 4 && offset.toNat % 4 == 0

/-! ### Memory accesses of the host -/

/-- The engine may still access its regions: an operation runs and the platform does not hold it in reset. -/
def State.engineActive (s : State) : Bool := s.busy && !s.plat.inReset

/-- OUT of an operation that has ended unobserved (spec/70_reset_and_hazards.md R460). -/
def State.unseenOut (s : State) (a : Nat) : Bool :=
  s.plat.unseen.any fun r => inRegion r.base.toNat r.len.toNat a

/-- OUT of an operation that runs, or that has ended unobserved: the host must not touch it (R460). -/
def State.lentOut (s : State) (a : Nat) : Bool := (s.engineActive && s.inOut a) || s.unseenOut a

/-- A host write to memory. While an operation runs, one to IN, PAL or OUT is a race (R92); one to the OUT of an operation
that has ended unobserved leaves any value, a draw (R460). -/
def State.hostWriteMem (s : State) (a : Word) (v : Byte) : State :=
  let n := s.plat.draws + 1
  let t := if s.unseenOut a.toNat then
      { s.memWrite a.toNat (Config.raceByte n 0 a.toNat) with plat := { s.plat with draws := n } }
    else s.memWrite a.toNat v
  if s.engineActive && (s.inIn a.toNat || s.inPal a.toNat || s.inOut a.toNat) then
    { t with plat := { t.plat with races := a :: t.plat.races } }
  else t

/-- The value that the last host read returned. -/
def State.withReadData (s : State) (v : Word) : State := { s with plat := { s.plat with readData := v } }

/-- A host read of memory; one of a lent OUT returns any value, a draw of its own (R92, R460, log 7). -/
def State.hostReadMem (s : State) (a : Word) : State :=
  if s.lentOut a.toNat then
    let n := s.plat.draws + 1
    { s with plat := { s.plat with readData := (Config.raceByte n 0 a.toNat).setWidth 32, draws := n } }
  else s.withReadData ((s.memByte a.toNat).setWidth 32)

/-! ### Observing that an operation has ended (spec/20_memory.md R91, spec/70_reset_and_hazards.md R460) -/

/-- The host has seen that no operation is left running, so that nothing is lent any more. Log 30. -/
def State.observe (s : State) (ended : Bool) : State :=
  if ended then { s with plat := { s.plat with unseen := [] } } else s

/-- A host read of a register. A value of STATUS with BUSY = 0 or DONE = 1 shows that the operation has ended (R91, R460);
the register itself is not changed (R86). While reset is asserted reads return 0 (R450). -/
def State.hostReadReg (s : State) (offset : Nat) : State :=
  let v := if s.plat.inReset then 0 else s.regValue offset
  (s.withReadData v).observe (offset == 0x04 && (!v.getLsbD 0 || v.getLsbD 1))

/-- The host looks at IRQ; an interrupt taken shows that the operation has ended (R91, R460). -/
def State.hostReadIrq (s : State) : State := (s.withReadData (bitWord s.irq)).observe s.irq

/-! ### What lands between two engine steps -/

/-- The effect of an input that is not a turn of the engine. While reset is asserted, register writes are ignored and
reads return 0 (spec/70_reset_and_hazards.md R450). -/
def hostStep (inp : Input) (s : State) : Host.Outcome State Fault Refusal :=
  match inp with
  | .readReg offset size =>
    if regAccessOk offset size then .next (s.hostReadReg offset.toNat) else .refused .registerAccessShape
  | .writeReg offset size v =>
    if regAccessOk offset size then .next (if s.plat.inReset then s else s.writeReg offset.toNat v)
    else .refused .registerAccessShape
  | .readIrq => .next s.hostReadIrq
  | .readMem a => .next (s.hostReadMem a)
  | .writeMem a v => .next (s.hostWriteMem a v)
  | .reset true => .next s.assertReset
  | .reset false => .next s.deassertReset
  | .engine => .next s

/-! ### The platform's routing of host addresses (spec/20_memory.md R80, R85, R87) -/

/-- The register window's 256 bytes start at REG_BASE (R42); the platform routes an address to the window or to memory. -/
def windowOffset? (a : Word) : Option Byte :=
  if (a - Config.regBase).toNat < 256 then some ((a - Config.regBase).setWidth 8) else none

/-- A host's 32-bit write at an address of the window, as an input (log 11). -/
def Input.ofRegisterWrite (a v : Word) : Option Input := (windowOffset? a).map fun o => .writeReg o 4 v

/-- A host's 32-bit read at an address of the window, as an input (log 11). -/
def Input.ofRegisterRead (a : Word) : Option Input := (windowOffset? a).map fun o => .readReg o 4

end Sys2Proof.Machine
end

