-- ==== Sys2Proof/Machine/Command.lean ====
section
/-!
DEFINITION. The command words (spec/30_encoding.md R111 to R114, spec/60_exceptions.md R403). A command starts when the
host writes it to an idle CTRL (spec/10_state.md R44); the engine's first step checks it and, if every check passes, enters
the operation.
-/

namespace Sys2Proof.Machine

/-! ### Entering an operation -/

/-- A decoder's output is zero-filled before its body (R114). -/
def Operation.isDecoder : Operation → Bool
  | .decRle8 | .decRle4 | .decRle24 | .decHuff => true
  | .unpack | .encRle8 | .encRle4 => false

/-- The number of bytes that the zero-fill writes: min(OUT_LEN, S(b, W)·H) (R114). -/
def fillLength (d : Depth) (g : Cfg) : Nat :=
  min g.outLen.toNat (stride d g.width.toNat * g.height.toNat)

/-- The first step of an operation initialises the hidden state that the operation uses (spec/10_state.md R61), as the
assignments before the body's first marked step say (spec/40_rle_decode.md R150, spec/41_g3_decode.md R200,
spec/43_rle_encode.md R280, spec/44_unpack.md R330). An encoder's progress registers are those of row 0 (log 3). -/
def State.initialise (s : State) (op : Operation) : State :=
  match op with
  | .decRle8 | .decRle4 | .decRle24 => { s with eng := { s.eng with p := 0, x := 0, y := 0 } }
  | .decHuff =>
    { s with eng := { s.eng with
        q := 0, color := .white, x := 0, y := 0, started := false, sawCode := false, eolRun := 0, pend := 0 } }
  | .encRle8 | .encRle4 =>
    { s with
      eng := { s.eng with o := 0, r := 0, i := 0, cnt := 0 }
      pos := { s.pos with inPos := 0, curX := 0, curY := 0 } }
  | .unpack => { s with eng := { s.eng with o := 0, j := 0, x := 0, y := .ofNat 32 (s.cfg.height.toNat - 1) } }

/-- The engine goes to another phase; nothing else changes. -/
def State.withPhase (s : State) (p : Phase) : State := { s with eng := { s.eng with phase := p } }

/-- What follows the checks, in the same step: the hidden state is initialised (spec/10_state.md R61), and a decoder's
zero-fill comes next when there is a byte to fill, else the body (R114). -/
def State.enterOperation (s : State) (op : Operation) (d : Depth) : State :=
  (s.initialise op).withPhase (if Operation.isDecoder op && decide (0 < fillLength d s.cfg) then .fill 0 else .body)

/-- One write of the zero-fill, Out(k) <- 0x00; after the last one the body comes next (R114, log 4). -/
def zeroFillStep (k : Word) (s : State) : Host.Outcome State Fault Refusal :=
  match Operation.ofCode s.ctrl.op, Depth.ofCode s.ctrl.bpp with
  | some op, some d =>
    if Operation.isDecoder op && configError op d s.ctrl.flags s.cfg == none && decide (k.toNat < fillLength d s.cfg) then
      .next ((s.outWrite k.toNat 0).withPhase (if k.toNat + 1 < fillLength d s.cfg then .fill (k + 1) else .body))
    else .fault .outsideOperation
  | _, _ => .fault .outsideOperation

/-- The engine's first step for a legal command word: the checks of R403, then the operation (R114). -/
def State.firstStep (s : State) (op : Operation) (d : Depth) (f : CmdFlags) : State :=
  match configError op d f s.cfg with
  | some c => s.raise c
  | none => s.enterOperation op d

/-- A command word's meaning, by what the block is doing (log 2). Idle: it is the host's START write (R44). Started: the
engine's first step runs it. Running: CTRL writes are ignored (R44). -/
def runCommand (w : Word) (first : State → State) (s : State) : Host.Outcome State Fault Refusal :=
  match s.eng.phase with
  | .idle => .next (s.writeCtrl w)
  | .start => .next (first s)
  | .fill _ => .next s
  | .body => .next s

/-! ### The command words -/

/-- UNPACK.1: BPP code 0 (R112, R113, spec/44_unpack.md R330). -/
def execUnpack1 (f : CmdFlags) (s : State) : Host.Outcome State Fault Refusal :=
  runCommand (commandWord 0x0 0 f) (fun s => s.firstStep .unpack .d1 f) s

/-- UNPACK.4: BPP code 1 (R112, R113, spec/44_unpack.md R330). -/
def execUnpack4 (f : CmdFlags) (s : State) : Host.Outcome State Fault Refusal :=
  runCommand (commandWord 0x0 1 f) (fun s => s.firstStep .unpack .d4 f) s

/-- UNPACK.8: BPP code 2 (R112, R113, spec/44_unpack.md R330). -/
def execUnpack8 (f : CmdFlags) (s : State) : Host.Outcome State Fault Refusal :=
  runCommand (commandWord 0x0 2 f) (fun s => s.firstStep .unpack .d8 f) s

/-- UNPACK.24: BPP code 3 (R112, R113, spec/44_unpack.md R330). -/
def execUnpack24 (f : CmdFlags) (s : State) : Host.Outcome State Fault Refusal :=
  runCommand (commandWord 0x0 3 f) (fun s => s.firstStep .unpack .d24 f) s

/-- UNPACK.32: BPP code 4 (R112, R113, spec/44_unpack.md R330). -/
def execUnpack32 (f : CmdFlags) (s : State) : Host.Outcome State Fault Refusal :=
  runCommand (commandWord 0x0 4 f) (fun s => s.firstStep .unpack .d32 f) s

/-- DEC_RLE8 (R112, spec/40_rle_decode.md R150). -/
def execDecRle8 (d : Depth) (f : CmdFlags) (s : State) : Host.Outcome State Fault Refusal :=
  runCommand (commandWord 0x1 d.code f) (fun s => s.firstStep .decRle8 d f) s

/-- DEC_RLE4 (R112, spec/40_rle_decode.md R150). -/
def execDecRle4 (d : Depth) (f : CmdFlags) (s : State) : Host.Outcome State Fault Refusal :=
  runCommand (commandWord 0x2 d.code f) (fun s => s.firstStep .decRle4 d f) s

/-- DEC_HUFF (R112, spec/41_g3_decode.md R200). -/
def execDecHuff (d : Depth) (f : CmdFlags) (s : State) : Host.Outcome State Fault Refusal :=
  runCommand (commandWord 0x3 d.code f) (fun s => s.firstStep .decHuff d f) s

/-- DEC_RLE24 (R112, spec/40_rle_decode.md R150). -/
def execDecRle24 (d : Depth) (f : CmdFlags) (s : State) : Host.Outcome State Fault Refusal :=
  runCommand (commandWord 0x4 d.code f) (fun s => s.firstStep .decRle24 d f) s

/-- ENC_RLE8 (R112, spec/43_rle_encode.md R280). -/
def execEncRle8 (d : Depth) (f : CmdFlags) (s : State) : Host.Outcome State Fault Refusal :=
  runCommand (commandWord 0x9 d.code f) (fun s => s.firstStep .encRle8 d f) s

/-- ENC_RLE4 (R112, spec/43_rle_encode.md R280). -/
def execEncRle4 (d : Depth) (f : CmdFlags) (s : State) : Host.Outcome State Fault Refusal :=
  runCommand (commandWord 0xA d.code f) (fun s => s.firstStep .encRle4 d f) s

/-- Reserved OP 0x5: START ends with UNSUPPORTED and touches no memory (R126, R403 check 1). -/
def execReservedOp5 (bpp : BitVec 3) (f : CmdFlags) (s : State) : Host.Outcome State Fault Refusal :=
  runCommand (commandWord 0x5 bpp f) (fun s => s.raise .unsupported) s

/-- Reserved OP 0x6: START ends with UNSUPPORTED and touches no memory (R126, R403 check 1). -/
def execReservedOp6 (bpp : BitVec 3) (f : CmdFlags) (s : State) : Host.Outcome State Fault Refusal :=
  runCommand (commandWord 0x6 bpp f) (fun s => s.raise .unsupported) s

/-- Reserved OP 0x7: START ends with UNSUPPORTED and touches no memory (R126, R403 check 1). -/
def execReservedOp7 (bpp : BitVec 3) (f : CmdFlags) (s : State) : Host.Outcome State Fault Refusal :=
  runCommand (commandWord 0x7 bpp f) (fun s => s.raise .unsupported) s

/-- Reserved OP 0x8: START ends with UNSUPPORTED and touches no memory (R126, R403 check 1). -/
def execReservedOp8 (bpp : BitVec 3) (f : CmdFlags) (s : State) : Host.Outcome State Fault Refusal :=
  runCommand (commandWord 0x8 bpp f) (fun s => s.raise .unsupported) s

/-- Reserved OP 0xB: START ends with UNSUPPORTED and touches no memory (R126, R403 check 1). -/
def execReservedOpB (bpp : BitVec 3) (f : CmdFlags) (s : State) : Host.Outcome State Fault Refusal :=
  runCommand (commandWord 0xB bpp f) (fun s => s.raise .unsupported) s

/-- Reserved OP 0xC: START ends with UNSUPPORTED and touches no memory (R126, R403 check 1). -/
def execReservedOpC (bpp : BitVec 3) (f : CmdFlags) (s : State) : Host.Outcome State Fault Refusal :=
  runCommand (commandWord 0xC bpp f) (fun s => s.raise .unsupported) s

/-- Reserved OP 0xD: START ends with UNSUPPORTED and touches no memory (R126, R403 check 1). -/
def execReservedOpD (bpp : BitVec 3) (f : CmdFlags) (s : State) : Host.Outcome State Fault Refusal :=
  runCommand (commandWord 0xD bpp f) (fun s => s.raise .unsupported) s

/-- Reserved OP 0xE: START ends with UNSUPPORTED and touches no memory (R126, R403 check 1). -/
def execReservedOpE (bpp : BitVec 3) (f : CmdFlags) (s : State) : Host.Outcome State Fault Refusal :=
  runCommand (commandWord 0xE bpp f) (fun s => s.raise .unsupported) s

/-- Reserved OP 0xF: START ends with UNSUPPORTED and touches no memory (R126, R403 check 1). -/
def execReservedOpF (bpp : BitVec 3) (f : CmdFlags) (s : State) : Host.Outcome State Fault Refusal :=
  runCommand (commandWord 0xF bpp f) (fun s => s.raise .unsupported) s

/-- Reserved BPP 5: START ends with UNSUPPORTED and touches no memory (R113, R126, R403 check 2). -/
def execReservedBpp5 (op : Operation) (f : CmdFlags) (s : State) : Host.Outcome State Fault Refusal :=
  runCommand (commandWord op.code 5 f) (fun s => s.raise .unsupported) s

/-- Reserved BPP 6: START ends with UNSUPPORTED and touches no memory (R113, R126, R403 check 2). -/
def execReservedBpp6 (op : Operation) (f : CmdFlags) (s : State) : Host.Outcome State Fault Refusal :=
  runCommand (commandWord op.code 6 f) (fun s => s.raise .unsupported) s

/-- Reserved BPP 7: START ends with UNSUPPORTED and touches no memory (R113, R126, R403 check 2). -/
def execReservedBpp7 (op : Operation) (f : CmdFlags) (s : State) : Host.Outcome State Fault Refusal :=
  runCommand (commandWord op.code 7 f) (fun s => s.raise .unsupported) s

end Sys2Proof.Machine
end

