-- ==== Sys2Proof/Machine/RleDecode.lean ====
section
/-!
DEFINITION. The RLE stream units of DEC_RLE8, DEC_RLE4 and DEC_RLE24 (spec/40_rle_decode.md).
-/

namespace Sys2Proof.Machine

/-- The operation that decodes a variant (R150). -/
def Rle.operation : Rle → Operation
  | .rle8 => .decRle8
  | .rle4 => .decRle4
  | .rle24 => .decRle24

/-- The pixel depth of a variant (R150). -/
def Rle.depth : Rle → Depth
  | .rle8 => .d8
  | .rle4 => .d4
  | .rle24 => .d24

/-! ### Pixel writes (R152) -/

/-- Put at 8 bpp. -/
def State.put8 (s : State) (x y : Nat) (v : Byte) : State :=
  s.outWrite (y * stride .d8 s.cfg.width.toNat + x) v

/-- A byte with its high nibble (even x) or low nibble (odd x) replaced. -/
def replaceNibble (old : Byte) (x : Nat) (v : Nibble) : Byte :=
  if x % 2 = 0 then (v.setWidth 8 <<< 4) ||| (old &&& 0x0F) else (old &&& 0xF0) ||| v.setWidth 8

/-- Put at 4 bpp: a read-modify-write of the byte that holds the pixel. -/
def State.put4 (s : State) (x y : Nat) (v : Nibble) : State :=
  let k := y * stride .d4 s.cfg.width.toNat + x / 2
  s.outWrite k (replaceNibble (s.outByte k) x v)

/-- Put at 24 bpp. -/
def State.put24 (s : State) (x y : Nat) (v : Byte × Byte × Byte) : State :=
  let k := y * stride .d24 s.cfg.width.toNat + 3 * x
  ((s.outWrite k v.1).outWrite (k + 1) v.2.1).outWrite (k + 2) v.2.2

/-- The pixels of a unit, written left to right from (x, y). -/
def putPixels {α : Type} (put : State → Nat → Nat → α → State) (s : State) (x y : Nat) : List α → State
  | [] => s
  | v :: vs => putPixels put (put s x y v) (x + 1) y vs

/-! ### Unit control -/

/-- CheckWrite(n): the width test, then the destination test (R153). -/
def State.checkWrite (s : State) (d : Depth) (n : Nat) : Option ErrCode :=
  let x := s.eng.x.toNat
  let y := s.eng.y.toNat
  let w := s.cfg.width.toNat
  let last := y * stride d w + ((x + n) * d.bits - 1) / 8
  if w < x + n then some .widthOverflow
  else if s.cfg.height.toNat ≤ y ∨ s.cfg.outLen.toNat ≤ last then some .bufferOverflow
  else none

/-- The end of a unit's step: the cursor, and the registers that mirror it (R150, R151). -/
def State.moveTo (s : State) (p x y : Nat) : State :=
  { s with
    eng := { s.eng with p := .ofNat 32 p, x := .ofNat 32 x, y := .ofNat 32 y }
    pos := { s.pos with inPos := .ofNat 32 p, curX := .ofNat 32 x, curY := .ofNat 32 y } }

/-- A unit of len bytes: TRUNCATED when the input ends inside it, before anything else (R151). -/
def rleUnit (v : Rle) (len : Nat) (effect : State → State) (s : State) : Host.Outcome State Fault Refusal :=
  s.within (Rle.operation v) (Rle.depth v)
    (if s.cfg.inLen.toNat < s.eng.p.toNat + len then s.raise .truncated else effect s)

/-- A unit of len bytes that writes n pixels: the write check, then the pixels, then the cursor (R153, R154). -/
def rlePixels (v : Rle) (len n : Nat) (write : State → State) (s : State) : Host.Outcome State Fault Refusal :=
  rleUnit v len (fun s =>
    match s.checkWrite (Rle.depth v) n with
    | some c => s.raise c
    | none => (write s).moveTo (s.eng.p.toNat + len) (s.eng.x.toNat + n) s.eng.y.toNat) s

/-- EOL: the next row from its start (R157). -/
def rleEol (v : Rle) (s : State) : Host.Outcome State Fault Refusal :=
  rleUnit v 2 (fun s => s.moveTo (s.eng.p.toNat + 2) 0 (sat32 (s.eng.y.toNat + 1))) s

/-- EOB: the operation ends with success behind the unit (R155). -/
def rleEob (v : Rle) (s : State) : Host.Outcome State Fault Refusal :=
  rleUnit v 2 (fun s =>
    let p := BitVec.ofNat 32 (s.eng.p.toNat + 2)
    State.finish { s with eng := { s.eng with p := p }, pos := { s.pos with inPos := p } }) s

/-- DELTA: both coordinates move on, saturating (R158, R160). -/
def rleDelta (v : Rle) (dx dy : Byte) (s : State) : Host.Outcome State Fault Refusal :=
  rleUnit v 4 (fun s =>
    s.moveTo (s.eng.p.toNat + 4) (sat32 (s.eng.x.toNat + dx.toNat)) (sat32 (s.eng.y.toNat + dy.toNat))) s

/-- The length of an absolute run of n pixels (R120, R121). -/
def absLength (v : Rle) (n : Nat) : Nat := 2 + v.dataBytes n + v.dataBytes n % 2

/-! ### The pixels of a unit -/

/-- The c pixels of an RLE4 run: h and l in turn, h first (R163). -/
def runPixels4 (c : Nat) (h l : Nibble) : List Nibble := (List.range c).map fun i => if i % 2 = 0 then h else l

/-- The n pixels of an RLE4 absolute run (R164). -/
def absPixels4 (n : Nat) (data : List Byte) : List Nibble :=
  (List.range n).map fun i =>
    let e := data.getD (i / 2) 0
    if i % 2 = 0 then e.extractLsb' 4 4 else e.extractLsb' 0 4

/-- The n pixels of an RLE24 absolute run (R166). -/
def absPixels24 (n : Nat) (data : List Byte) : List (Byte × Byte × Byte) :=
  (List.range n).map fun i => (data.getD (3 * i) 0, data.getD (3 * i + 1) 0, data.getD (3 * i + 2) 0)

/-! ### RLE8 (R161, R162) -/

/-- RLE8.RUN (R161). -/
def execRle8Run (c v : Byte) (s : State) : Host.Outcome State Fault Refusal :=
  rlePixels .rle8 2 c.toNat (fun s => putPixels State.put8 s s.eng.x.toNat s.eng.y.toNat (List.replicate c.toNat v)) s

/-- RLE8.EOL (R157). -/
def execRle8Eol (s : State) : Host.Outcome State Fault Refusal := rleEol .rle8 s

/-- RLE8.EOB (R155). -/
def execRle8Eob (s : State) : Host.Outcome State Fault Refusal := rleEob .rle8 s

/-- RLE8.DELTA (R158). -/
def execRle8Delta (dx dy : Byte) (s : State) : Host.Outcome State Fault Refusal := rleDelta .rle8 dx dy s

/-- RLE8.ABS (R162). -/
def execRle8Abs (n : Byte) (data : List Byte) (s : State) : Host.Outcome State Fault Refusal :=
  rlePixels .rle8 (absLength .rle8 n.toNat) n.toNat
    (fun s => putPixels State.put8 s s.eng.x.toNat s.eng.y.toNat (data.take n.toNat)) s

/-! ### RLE4 (R163, R164) -/

/-- RLE4.RUN (R163). -/
def execRle4Run (c : Byte) (h l : Nibble) (s : State) : Host.Outcome State Fault Refusal :=
  rlePixels .rle4 2 c.toNat (fun s => putPixels State.put4 s s.eng.x.toNat s.eng.y.toNat (runPixels4 c.toNat h l)) s

/-- RLE4.EOL (R157). -/
def execRle4Eol (s : State) : Host.Outcome State Fault Refusal := rleEol .rle4 s

/-- RLE4.EOB (R155). -/
def execRle4Eob (s : State) : Host.Outcome State Fault Refusal := rleEob .rle4 s

/-- RLE4.DELTA (R158). -/
def execRle4Delta (dx dy : Byte) (s : State) : Host.Outcome State Fault Refusal := rleDelta .rle4 dx dy s

/-- RLE4.ABS (R164). -/
def execRle4Abs (n : Byte) (data : List Byte) (s : State) : Host.Outcome State Fault Refusal :=
  rlePixels .rle4 (absLength .rle4 n.toNat) n.toNat
    (fun s => putPixels State.put4 s s.eng.x.toNat s.eng.y.toNat (absPixels4 n.toNat data)) s

/-! ### RLE24 (R165, R166) -/

/-- RLE24.RUN (R165). -/
def execRle24Run (c b0 b1 b2 : Byte) (s : State) : Host.Outcome State Fault Refusal :=
  rlePixels .rle24 4 c.toNat
    (fun s => putPixels State.put24 s s.eng.x.toNat s.eng.y.toNat (List.replicate c.toNat (b0, b1, b2))) s

/-- RLE24.EOL (R157). -/
def execRle24Eol (s : State) : Host.Outcome State Fault Refusal := rleEol .rle24 s

/-- RLE24.EOB (R155). -/
def execRle24Eob (s : State) : Host.Outcome State Fault Refusal := rleEob .rle24 s

/-- RLE24.DELTA (R158). -/
def execRle24Delta (dx dy : Byte) (s : State) : Host.Outcome State Fault Refusal := rleDelta .rle24 dx dy s

/-- RLE24.ABS (R166). -/
def execRle24Abs (n : Byte) (data : List Byte) (s : State) : Host.Outcome State Fault Refusal :=
  rlePixels .rle24 (absLength .rle24 n.toNat) n.toNat
    (fun s => putPixels State.put24 s s.eng.x.toNat s.eng.y.toNat (absPixels24 n.toNat data)) s

end Sys2Proof.Machine
end

