-- ==== Sys2Proof/Machine/Group3.lean ====
section
/-!
DEFINITION. The Group-3 codes of DEC_HUFF (spec/41_g3_decode.md). The run lengths are those of spec/42_g3_code_tables.md;
a code's length in bits is that of the table the decoder reads it from.
-/

namespace Sys2Proof.Machine

/-- A byte with the bit of pixel x replaced: bit 7 − (x mod 8) (R209). -/
def replaceBit (old : Byte) (x : Nat) (v : Bool) : Byte :=
  let m : Byte := 1 <<< (7 - x % 8)
  (old &&& ~~~m) ||| (if v then m else 0)

/-- PutBit(x, y, v): a read-modify-write of the byte that holds the pixel (R209). -/
def State.putBit (s : State) (x y : Nat) (v : Bool) : State :=
  let k := y * stride .d1 s.cfg.width.toNat + x / 8
  s.outWrite k (replaceBit (s.outByte k) x v)

/-- A run of n pixels of one colour, left to right from (x, y). -/
def State.putBitRun (s : State) (x y : Nat) (v : Bool) : Nat → State
  | 0 => s
  | n + 1 => (s.putBit x y v).putBitRun (x + 1) y v n

/-- The other colour. -/
def Color.other : Color → Color
  | .white => .black
  | .black => .white

/-- A white pixel is a 1 bit and a black one a 0 bit (R211). -/
def Color.bit : Color → Bool
  | .white => true
  | .black => false

/-- len bits more are consumed; IN_POS is ceil(q/8) (R201). -/
def State.consumeBits (s : State) (len : Nat) : State :=
  let q := s.eng.q.toNat + len
  { s with
    eng := { s.eng with q := .ofNat 35 q }
    pos := { s.pos with inPos := .ofNat 32 ((q + 7) / 8) } }

/-- The end of a code's step: the code's bits are consumed, and CUR_X, CUR_Y mirror the cursor (R200). -/
def State.consumeCode (s : State) (len : Nat) : State :=
  let t := s.consumeBits len
  { t with pos := { t.pos with curX := s.eng.x, curY := s.eng.y } }

/-- A run code of len bits: no code but EOL may come first (R203). -/
def runCode (len : Nat) (effect : State → Except ErrCode State) (s : State) : Host.Outcome State Fault Refusal :=
  s.within .decHuff .d1
    (if s.eng.started then
      match effect s with
      | .ok t => t.consumeCode len
      | .error c => s.raise c
    else s.raise .g3NoLeadingEol)

/-- The effect of a terminating code of run n: the whole run is checked, written and passed, and the colour changes
(R206). -/
def terminateRun (n : Nat) (s : State) : Except ErrCode State :=
  let t := s.eng.pend.toNat + n
  let x := s.eng.x.toNat
  let y := s.eng.y.toNat
  let w := s.cfg.width.toNat
  if w < x + t then .error .widthOverflow
  else if 0 < t ∧ (s.cfg.height.toNat ≤ y ∨ s.cfg.outLen.toNat ≤ y * stride .d1 w + (x + t - 1) / 8) then
    .error .bufferOverflow
  else
    let u := s.putBitRun x y (Color.bit s.eng.color) t
    .ok { u with eng := { u.eng with
      x := .ofNat 32 (x + t), pend := 0, color := Color.other s.eng.color, sawCode := true, eolRun := 0 } }

/-- The effect of a make-up code of run n: it adds to the waiting total (R207, R208). -/
def makeUpRun (n : Nat) (s : State) : Except ErrCode State :=
  if s.cfg.width.toNat < s.eng.x.toNat + s.eng.pend.toNat + n then .error .widthOverflow
  else .ok { s with eng := { s.eng with
    pend := .ofNat 32 (s.eng.pend.toNat + n), sawCode := true, eolRun := 0 } }

/-- A terminating code (R206). -/
def terminatingCode (n len : Nat) (s : State) : Host.Outcome State Fault Refusal := runCode len (terminateRun n) s

/-- A make-up code (R207, R208). -/
def makeUpCode (n len : Nat) (s : State) : Host.Outcome State Fault Refusal := runCode len (makeUpRun n) s

/-- The line bookkeeping of an EOL code (R204, R210). -/
def eolEngine (e : Engine) : Engine :=
  if e.started then
    if e.sawCode then
      { e with y := .ofNat 32 (sat32 (e.y.toNat + 1)), x := 0, color := .white, sawCode := false, eolRun := 1 }
    else { e with eolRun := e.eolRun + 1 }
  else { e with started := true, eolRun := 1 }

/-- EOL with its fill bits; the sixth in a row ends the operation with success (R204, R205). -/
def execEol (fill : Nat) (s : State) : Host.Outcome State Fault Refusal :=
  s.within .decHuff .d1
    (if s.eng.pend ≠ 0 then s.raise .g3MakeupAtEol
    else
      let t := { s with eng := eolEngine s.eng }
      if t.eng.eolRun.toNat = Config.g3EndRun then (t.consumeBits (12 + fill)).finish else t.consumeCode (12 + fill))

/-! ### White terminating codes (R206, R251) -/

def execWt0 (s : State) : Host.Outcome State Fault Refusal := terminatingCode 0 (s.g3.codeLength .wt0) s
def execWt1 (s : State) : Host.Outcome State Fault Refusal := terminatingCode 1 (s.g3.codeLength .wt1) s
def execWt2 (s : State) : Host.Outcome State Fault Refusal := terminatingCode 2 (s.g3.codeLength .wt2) s
def execWt3 (s : State) : Host.Outcome State Fault Refusal := terminatingCode 3 (s.g3.codeLength .wt3) s
def execWt4 (s : State) : Host.Outcome State Fault Refusal := terminatingCode 4 (s.g3.codeLength .wt4) s
def execWt5 (s : State) : Host.Outcome State Fault Refusal := terminatingCode 5 (s.g3.codeLength .wt5) s
def execWt6 (s : State) : Host.Outcome State Fault Refusal := terminatingCode 6 (s.g3.codeLength .wt6) s
def execWt7 (s : State) : Host.Outcome State Fault Refusal := terminatingCode 7 (s.g3.codeLength .wt7) s
def execWt8 (s : State) : Host.Outcome State Fault Refusal := terminatingCode 8 (s.g3.codeLength .wt8) s
def execWt9 (s : State) : Host.Outcome State Fault Refusal := terminatingCode 9 (s.g3.codeLength .wt9) s
def execWt10 (s : State) : Host.Outcome State Fault Refusal := terminatingCode 10 (s.g3.codeLength .wt10) s
def execWt11 (s : State) : Host.Outcome State Fault Refusal := terminatingCode 11 (s.g3.codeLength .wt11) s
def execWt12 (s : State) : Host.Outcome State Fault Refusal := terminatingCode 12 (s.g3.codeLength .wt12) s
def execWt13 (s : State) : Host.Outcome State Fault Refusal := terminatingCode 13 (s.g3.codeLength .wt13) s
def execWt14 (s : State) : Host.Outcome State Fault Refusal := terminatingCode 14 (s.g3.codeLength .wt14) s
def execWt15 (s : State) : Host.Outcome State Fault Refusal := terminatingCode 15 (s.g3.codeLength .wt15) s
def execWt16 (s : State) : Host.Outcome State Fault Refusal := terminatingCode 16 (s.g3.codeLength .wt16) s
def execWt17 (s : State) : Host.Outcome State Fault Refusal := terminatingCode 17 (s.g3.codeLength .wt17) s
def execWt18 (s : State) : Host.Outcome State Fault Refusal := terminatingCode 18 (s.g3.codeLength .wt18) s
def execWt19 (s : State) : Host.Outcome State Fault Refusal := terminatingCode 19 (s.g3.codeLength .wt19) s
def execWt20 (s : State) : Host.Outcome State Fault Refusal := terminatingCode 20 (s.g3.codeLength .wt20) s
def execWt21 (s : State) : Host.Outcome State Fault Refusal := terminatingCode 21 (s.g3.codeLength .wt21) s
def execWt22 (s : State) : Host.Outcome State Fault Refusal := terminatingCode 22 (s.g3.codeLength .wt22) s
def execWt23 (s : State) : Host.Outcome State Fault Refusal := terminatingCode 23 (s.g3.codeLength .wt23) s
def execWt24 (s : State) : Host.Outcome State Fault Refusal := terminatingCode 24 (s.g3.codeLength .wt24) s
def execWt25 (s : State) : Host.Outcome State Fault Refusal := terminatingCode 25 (s.g3.codeLength .wt25) s
def execWt26 (s : State) : Host.Outcome State Fault Refusal := terminatingCode 26 (s.g3.codeLength .wt26) s
def execWt27 (s : State) : Host.Outcome State Fault Refusal := terminatingCode 27 (s.g3.codeLength .wt27) s
def execWt28 (s : State) : Host.Outcome State Fault Refusal := terminatingCode 28 (s.g3.codeLength .wt28) s
def execWt29 (s : State) : Host.Outcome State Fault Refusal := terminatingCode 29 (s.g3.codeLength .wt29) s
def execWt30 (s : State) : Host.Outcome State Fault Refusal := terminatingCode 30 (s.g3.codeLength .wt30) s
def execWt31 (s : State) : Host.Outcome State Fault Refusal := terminatingCode 31 (s.g3.codeLength .wt31) s
def execWt32 (s : State) : Host.Outcome State Fault Refusal := terminatingCode 32 (s.g3.codeLength .wt32) s
def execWt33 (s : State) : Host.Outcome State Fault Refusal := terminatingCode 33 (s.g3.codeLength .wt33) s
def execWt34 (s : State) : Host.Outcome State Fault Refusal := terminatingCode 34 (s.g3.codeLength .wt34) s
def execWt35 (s : State) : Host.Outcome State Fault Refusal := terminatingCode 35 (s.g3.codeLength .wt35) s
def execWt36 (s : State) : Host.Outcome State Fault Refusal := terminatingCode 36 (s.g3.codeLength .wt36) s
def execWt37 (s : State) : Host.Outcome State Fault Refusal := terminatingCode 37 (s.g3.codeLength .wt37) s
def execWt38 (s : State) : Host.Outcome State Fault Refusal := terminatingCode 38 (s.g3.codeLength .wt38) s
def execWt39 (s : State) : Host.Outcome State Fault Refusal := terminatingCode 39 (s.g3.codeLength .wt39) s
def execWt40 (s : State) : Host.Outcome State Fault Refusal := terminatingCode 40 (s.g3.codeLength .wt40) s
def execWt41 (s : State) : Host.Outcome State Fault Refusal := terminatingCode 41 (s.g3.codeLength .wt41) s
def execWt42 (s : State) : Host.Outcome State Fault Refusal := terminatingCode 42 (s.g3.codeLength .wt42) s
def execWt43 (s : State) : Host.Outcome State Fault Refusal := terminatingCode 43 (s.g3.codeLength .wt43) s
def execWt44 (s : State) : Host.Outcome State Fault Refusal := terminatingCode 44 (s.g3.codeLength .wt44) s
def execWt45 (s : State) : Host.Outcome State Fault Refusal := terminatingCode 45 (s.g3.codeLength .wt45) s
def execWt46 (s : State) : Host.Outcome State Fault Refusal := terminatingCode 46 (s.g3.codeLength .wt46) s
def execWt47 (s : State) : Host.Outcome State Fault Refusal := terminatingCode 47 (s.g3.codeLength .wt47) s
def execWt48 (s : State) : Host.Outcome State Fault Refusal := terminatingCode 48 (s.g3.codeLength .wt48) s
def execWt49 (s : State) : Host.Outcome State Fault Refusal := terminatingCode 49 (s.g3.codeLength .wt49) s
def execWt50 (s : State) : Host.Outcome State Fault Refusal := terminatingCode 50 (s.g3.codeLength .wt50) s
def execWt51 (s : State) : Host.Outcome State Fault Refusal := terminatingCode 51 (s.g3.codeLength .wt51) s
def execWt52 (s : State) : Host.Outcome State Fault Refusal := terminatingCode 52 (s.g3.codeLength .wt52) s
def execWt53 (s : State) : Host.Outcome State Fault Refusal := terminatingCode 53 (s.g3.codeLength .wt53) s
def execWt54 (s : State) : Host.Outcome State Fault Refusal := terminatingCode 54 (s.g3.codeLength .wt54) s
def execWt55 (s : State) : Host.Outcome State Fault Refusal := terminatingCode 55 (s.g3.codeLength .wt55) s
def execWt56 (s : State) : Host.Outcome State Fault Refusal := terminatingCode 56 (s.g3.codeLength .wt56) s
def execWt57 (s : State) : Host.Outcome State Fault Refusal := terminatingCode 57 (s.g3.codeLength .wt57) s
def execWt58 (s : State) : Host.Outcome State Fault Refusal := terminatingCode 58 (s.g3.codeLength .wt58) s
def execWt59 (s : State) : Host.Outcome State Fault Refusal := terminatingCode 59 (s.g3.codeLength .wt59) s
def execWt60 (s : State) : Host.Outcome State Fault Refusal := terminatingCode 60 (s.g3.codeLength .wt60) s
def execWt61 (s : State) : Host.Outcome State Fault Refusal := terminatingCode 61 (s.g3.codeLength .wt61) s
def execWt62 (s : State) : Host.Outcome State Fault Refusal := terminatingCode 62 (s.g3.codeLength .wt62) s
def execWt63 (s : State) : Host.Outcome State Fault Refusal := terminatingCode 63 (s.g3.codeLength .wt63) s

/-! ### White make-up codes (R207, R252) -/

def execWm64 (s : State) : Host.Outcome State Fault Refusal := makeUpCode 64 (s.g3.codeLength .wm64) s
def execWm128 (s : State) : Host.Outcome State Fault Refusal := makeUpCode 128 (s.g3.codeLength .wm128) s
def execWm192 (s : State) : Host.Outcome State Fault Refusal := makeUpCode 192 (s.g3.codeLength .wm192) s
def execWm256 (s : State) : Host.Outcome State Fault Refusal := makeUpCode 256 (s.g3.codeLength .wm256) s
def execWm320 (s : State) : Host.Outcome State Fault Refusal := makeUpCode 320 (s.g3.codeLength .wm320) s
def execWm384 (s : State) : Host.Outcome State Fault Refusal := makeUpCode 384 (s.g3.codeLength .wm384) s
def execWm448 (s : State) : Host.Outcome State Fault Refusal := makeUpCode 448 (s.g3.codeLength .wm448) s
def execWm512 (s : State) : Host.Outcome State Fault Refusal := makeUpCode 512 (s.g3.codeLength .wm512) s
def execWm576 (s : State) : Host.Outcome State Fault Refusal := makeUpCode 576 (s.g3.codeLength .wm576) s
def execWm640 (s : State) : Host.Outcome State Fault Refusal := makeUpCode 640 (s.g3.codeLength .wm640) s
def execWm704 (s : State) : Host.Outcome State Fault Refusal := makeUpCode 704 (s.g3.codeLength .wm704) s
def execWm768 (s : State) : Host.Outcome State Fault Refusal := makeUpCode 768 (s.g3.codeLength .wm768) s
def execWm832 (s : State) : Host.Outcome State Fault Refusal := makeUpCode 832 (s.g3.codeLength .wm832) s
def execWm896 (s : State) : Host.Outcome State Fault Refusal := makeUpCode 896 (s.g3.codeLength .wm896) s
def execWm960 (s : State) : Host.Outcome State Fault Refusal := makeUpCode 960 (s.g3.codeLength .wm960) s
def execWm1024 (s : State) : Host.Outcome State Fault Refusal := makeUpCode 1024 (s.g3.codeLength .wm1024) s
def execWm1088 (s : State) : Host.Outcome State Fault Refusal := makeUpCode 1088 (s.g3.codeLength .wm1088) s
def execWm1152 (s : State) : Host.Outcome State Fault Refusal := makeUpCode 1152 (s.g3.codeLength .wm1152) s
def execWm1216 (s : State) : Host.Outcome State Fault Refusal := makeUpCode 1216 (s.g3.codeLength .wm1216) s
def execWm1280 (s : State) : Host.Outcome State Fault Refusal := makeUpCode 1280 (s.g3.codeLength .wm1280) s
def execWm1344 (s : State) : Host.Outcome State Fault Refusal := makeUpCode 1344 (s.g3.codeLength .wm1344) s
def execWm1408 (s : State) : Host.Outcome State Fault Refusal := makeUpCode 1408 (s.g3.codeLength .wm1408) s
def execWm1472 (s : State) : Host.Outcome State Fault Refusal := makeUpCode 1472 (s.g3.codeLength .wm1472) s
def execWm1536 (s : State) : Host.Outcome State Fault Refusal := makeUpCode 1536 (s.g3.codeLength .wm1536) s
def execWm1600 (s : State) : Host.Outcome State Fault Refusal := makeUpCode 1600 (s.g3.codeLength .wm1600) s
def execWm1664 (s : State) : Host.Outcome State Fault Refusal := makeUpCode 1664 (s.g3.codeLength .wm1664) s
def execWm1728 (s : State) : Host.Outcome State Fault Refusal := makeUpCode 1728 (s.g3.codeLength .wm1728) s

/-! ### Black terminating codes (R206, R253) -/

def execBt0 (s : State) : Host.Outcome State Fault Refusal := terminatingCode 0 (s.g3.codeLength .bt0) s
def execBt1 (s : State) : Host.Outcome State Fault Refusal := terminatingCode 1 (s.g3.codeLength .bt1) s
def execBt2 (s : State) : Host.Outcome State Fault Refusal := terminatingCode 2 (s.g3.codeLength .bt2) s
def execBt3 (s : State) : Host.Outcome State Fault Refusal := terminatingCode 3 (s.g3.codeLength .bt3) s
def execBt4 (s : State) : Host.Outcome State Fault Refusal := terminatingCode 4 (s.g3.codeLength .bt4) s
def execBt5 (s : State) : Host.Outcome State Fault Refusal := terminatingCode 5 (s.g3.codeLength .bt5) s
def execBt6 (s : State) : Host.Outcome State Fault Refusal := terminatingCode 6 (s.g3.codeLength .bt6) s
def execBt7 (s : State) : Host.Outcome State Fault Refusal := terminatingCode 7 (s.g3.codeLength .bt7) s
def execBt8 (s : State) : Host.Outcome State Fault Refusal := terminatingCode 8 (s.g3.codeLength .bt8) s
def execBt9 (s : State) : Host.Outcome State Fault Refusal := terminatingCode 9 (s.g3.codeLength .bt9) s
def execBt10 (s : State) : Host.Outcome State Fault Refusal := terminatingCode 10 (s.g3.codeLength .bt10) s
def execBt11 (s : State) : Host.Outcome State Fault Refusal := terminatingCode 11 (s.g3.codeLength .bt11) s
def execBt12 (s : State) : Host.Outcome State Fault Refusal := terminatingCode 12 (s.g3.codeLength .bt12) s
def execBt13 (s : State) : Host.Outcome State Fault Refusal := terminatingCode 13 (s.g3.codeLength .bt13) s
def execBt14 (s : State) : Host.Outcome State Fault Refusal := terminatingCode 14 (s.g3.codeLength .bt14) s
def execBt15 (s : State) : Host.Outcome State Fault Refusal := terminatingCode 15 (s.g3.codeLength .bt15) s
def execBt16 (s : State) : Host.Outcome State Fault Refusal := terminatingCode 16 (s.g3.codeLength .bt16) s
def execBt17 (s : State) : Host.Outcome State Fault Refusal := terminatingCode 17 (s.g3.codeLength .bt17) s
def execBt18 (s : State) : Host.Outcome State Fault Refusal := terminatingCode 18 (s.g3.codeLength .bt18) s
def execBt19 (s : State) : Host.Outcome State Fault Refusal := terminatingCode 19 (s.g3.codeLength .bt19) s
def execBt20 (s : State) : Host.Outcome State Fault Refusal := terminatingCode 20 (s.g3.codeLength .bt20) s
def execBt21 (s : State) : Host.Outcome State Fault Refusal := terminatingCode 21 (s.g3.codeLength .bt21) s
def execBt22 (s : State) : Host.Outcome State Fault Refusal := terminatingCode 22 (s.g3.codeLength .bt22) s
def execBt23 (s : State) : Host.Outcome State Fault Refusal := terminatingCode 23 (s.g3.codeLength .bt23) s
def execBt24 (s : State) : Host.Outcome State Fault Refusal := terminatingCode 24 (s.g3.codeLength .bt24) s
def execBt25 (s : State) : Host.Outcome State Fault Refusal := terminatingCode 25 (s.g3.codeLength .bt25) s
def execBt26 (s : State) : Host.Outcome State Fault Refusal := terminatingCode 26 (s.g3.codeLength .bt26) s
def execBt27 (s : State) : Host.Outcome State Fault Refusal := terminatingCode 27 (s.g3.codeLength .bt27) s
def execBt28 (s : State) : Host.Outcome State Fault Refusal := terminatingCode 28 (s.g3.codeLength .bt28) s
def execBt29 (s : State) : Host.Outcome State Fault Refusal := terminatingCode 29 (s.g3.codeLength .bt29) s
def execBt30 (s : State) : Host.Outcome State Fault Refusal := terminatingCode 30 (s.g3.codeLength .bt30) s
def execBt31 (s : State) : Host.Outcome State Fault Refusal := terminatingCode 31 (s.g3.codeLength .bt31) s
def execBt32 (s : State) : Host.Outcome State Fault Refusal := terminatingCode 32 (s.g3.codeLength .bt32) s
def execBt33 (s : State) : Host.Outcome State Fault Refusal := terminatingCode 33 (s.g3.codeLength .bt33) s
def execBt34 (s : State) : Host.Outcome State Fault Refusal := terminatingCode 34 (s.g3.codeLength .bt34) s
def execBt35 (s : State) : Host.Outcome State Fault Refusal := terminatingCode 35 (s.g3.codeLength .bt35) s
def execBt36 (s : State) : Host.Outcome State Fault Refusal := terminatingCode 36 (s.g3.codeLength .bt36) s
def execBt37 (s : State) : Host.Outcome State Fault Refusal := terminatingCode 37 (s.g3.codeLength .bt37) s
def execBt38 (s : State) : Host.Outcome State Fault Refusal := terminatingCode 38 (s.g3.codeLength .bt38) s
def execBt39 (s : State) : Host.Outcome State Fault Refusal := terminatingCode 39 (s.g3.codeLength .bt39) s
def execBt40 (s : State) : Host.Outcome State Fault Refusal := terminatingCode 40 (s.g3.codeLength .bt40) s
def execBt41 (s : State) : Host.Outcome State Fault Refusal := terminatingCode 41 (s.g3.codeLength .bt41) s
def execBt42 (s : State) : Host.Outcome State Fault Refusal := terminatingCode 42 (s.g3.codeLength .bt42) s
def execBt43 (s : State) : Host.Outcome State Fault Refusal := terminatingCode 43 (s.g3.codeLength .bt43) s
def execBt44 (s : State) : Host.Outcome State Fault Refusal := terminatingCode 44 (s.g3.codeLength .bt44) s
def execBt45 (s : State) : Host.Outcome State Fault Refusal := terminatingCode 45 (s.g3.codeLength .bt45) s
def execBt46 (s : State) : Host.Outcome State Fault Refusal := terminatingCode 46 (s.g3.codeLength .bt46) s
def execBt47 (s : State) : Host.Outcome State Fault Refusal := terminatingCode 47 (s.g3.codeLength .bt47) s
def execBt48 (s : State) : Host.Outcome State Fault Refusal := terminatingCode 48 (s.g3.codeLength .bt48) s
def execBt49 (s : State) : Host.Outcome State Fault Refusal := terminatingCode 49 (s.g3.codeLength .bt49) s
def execBt50 (s : State) : Host.Outcome State Fault Refusal := terminatingCode 50 (s.g3.codeLength .bt50) s
def execBt51 (s : State) : Host.Outcome State Fault Refusal := terminatingCode 51 (s.g3.codeLength .bt51) s
def execBt52 (s : State) : Host.Outcome State Fault Refusal := terminatingCode 52 (s.g3.codeLength .bt52) s
def execBt53 (s : State) : Host.Outcome State Fault Refusal := terminatingCode 53 (s.g3.codeLength .bt53) s
def execBt54 (s : State) : Host.Outcome State Fault Refusal := terminatingCode 54 (s.g3.codeLength .bt54) s
def execBt55 (s : State) : Host.Outcome State Fault Refusal := terminatingCode 55 (s.g3.codeLength .bt55) s
def execBt56 (s : State) : Host.Outcome State Fault Refusal := terminatingCode 56 (s.g3.codeLength .bt56) s
def execBt57 (s : State) : Host.Outcome State Fault Refusal := terminatingCode 57 (s.g3.codeLength .bt57) s
def execBt58 (s : State) : Host.Outcome State Fault Refusal := terminatingCode 58 (s.g3.codeLength .bt58) s
def execBt59 (s : State) : Host.Outcome State Fault Refusal := terminatingCode 59 (s.g3.codeLength .bt59) s
def execBt60 (s : State) : Host.Outcome State Fault Refusal := terminatingCode 60 (s.g3.codeLength .bt60) s
def execBt61 (s : State) : Host.Outcome State Fault Refusal := terminatingCode 61 (s.g3.codeLength .bt61) s
def execBt62 (s : State) : Host.Outcome State Fault Refusal := terminatingCode 62 (s.g3.codeLength .bt62) s
def execBt63 (s : State) : Host.Outcome State Fault Refusal := terminatingCode 63 (s.g3.codeLength .bt63) s

/-! ### Black make-up codes (R207, R254) -/

def execBm64 (s : State) : Host.Outcome State Fault Refusal := makeUpCode 64 (s.g3.codeLength .bm64) s
def execBm128 (s : State) : Host.Outcome State Fault Refusal := makeUpCode 128 (s.g3.codeLength .bm128) s
def execBm192 (s : State) : Host.Outcome State Fault Refusal := makeUpCode 192 (s.g3.codeLength .bm192) s
def execBm256 (s : State) : Host.Outcome State Fault Refusal := makeUpCode 256 (s.g3.codeLength .bm256) s
def execBm320 (s : State) : Host.Outcome State Fault Refusal := makeUpCode 320 (s.g3.codeLength .bm320) s
def execBm384 (s : State) : Host.Outcome State Fault Refusal := makeUpCode 384 (s.g3.codeLength .bm384) s
def execBm448 (s : State) : Host.Outcome State Fault Refusal := makeUpCode 448 (s.g3.codeLength .bm448) s
def execBm512 (s : State) : Host.Outcome State Fault Refusal := makeUpCode 512 (s.g3.codeLength .bm512) s
def execBm576 (s : State) : Host.Outcome State Fault Refusal := makeUpCode 576 (s.g3.codeLength .bm576) s
def execBm640 (s : State) : Host.Outcome State Fault Refusal := makeUpCode 640 (s.g3.codeLength .bm640) s
def execBm704 (s : State) : Host.Outcome State Fault Refusal := makeUpCode 704 (s.g3.codeLength .bm704) s
def execBm768 (s : State) : Host.Outcome State Fault Refusal := makeUpCode 768 (s.g3.codeLength .bm768) s
def execBm832 (s : State) : Host.Outcome State Fault Refusal := makeUpCode 832 (s.g3.codeLength .bm832) s
def execBm896 (s : State) : Host.Outcome State Fault Refusal := makeUpCode 896 (s.g3.codeLength .bm896) s
def execBm960 (s : State) : Host.Outcome State Fault Refusal := makeUpCode 960 (s.g3.codeLength .bm960) s
def execBm1024 (s : State) : Host.Outcome State Fault Refusal := makeUpCode 1024 (s.g3.codeLength .bm1024) s
def execBm1088 (s : State) : Host.Outcome State Fault Refusal := makeUpCode 1088 (s.g3.codeLength .bm1088) s
def execBm1152 (s : State) : Host.Outcome State Fault Refusal := makeUpCode 1152 (s.g3.codeLength .bm1152) s
def execBm1216 (s : State) : Host.Outcome State Fault Refusal := makeUpCode 1216 (s.g3.codeLength .bm1216) s
def execBm1280 (s : State) : Host.Outcome State Fault Refusal := makeUpCode 1280 (s.g3.codeLength .bm1280) s
def execBm1344 (s : State) : Host.Outcome State Fault Refusal := makeUpCode 1344 (s.g3.codeLength .bm1344) s
def execBm1408 (s : State) : Host.Outcome State Fault Refusal := makeUpCode 1408 (s.g3.codeLength .bm1408) s
def execBm1472 (s : State) : Host.Outcome State Fault Refusal := makeUpCode 1472 (s.g3.codeLength .bm1472) s
def execBm1536 (s : State) : Host.Outcome State Fault Refusal := makeUpCode 1536 (s.g3.codeLength .bm1536) s
def execBm1600 (s : State) : Host.Outcome State Fault Refusal := makeUpCode 1600 (s.g3.codeLength .bm1600) s
def execBm1664 (s : State) : Host.Outcome State Fault Refusal := makeUpCode 1664 (s.g3.codeLength .bm1664) s
def execBm1728 (s : State) : Host.Outcome State Fault Refusal := makeUpCode 1728 (s.g3.codeLength .bm1728) s

/-! ### Shared make-up codes (R208, R255) -/

def execXm1792 (s : State) : Host.Outcome State Fault Refusal := makeUpCode 1792 (s.g3.codeLength .xm1792) s
def execXm1856 (s : State) : Host.Outcome State Fault Refusal := makeUpCode 1856 (s.g3.codeLength .xm1856) s
def execXm1920 (s : State) : Host.Outcome State Fault Refusal := makeUpCode 1920 (s.g3.codeLength .xm1920) s
def execXm1984 (s : State) : Host.Outcome State Fault Refusal := makeUpCode 1984 (s.g3.codeLength .xm1984) s
def execXm2048 (s : State) : Host.Outcome State Fault Refusal := makeUpCode 2048 (s.g3.codeLength .xm2048) s
def execXm2112 (s : State) : Host.Outcome State Fault Refusal := makeUpCode 2112 (s.g3.codeLength .xm2112) s
def execXm2176 (s : State) : Host.Outcome State Fault Refusal := makeUpCode 2176 (s.g3.codeLength .xm2176) s
def execXm2240 (s : State) : Host.Outcome State Fault Refusal := makeUpCode 2240 (s.g3.codeLength .xm2240) s
def execXm2304 (s : State) : Host.Outcome State Fault Refusal := makeUpCode 2304 (s.g3.codeLength .xm2304) s
def execXm2368 (s : State) : Host.Outcome State Fault Refusal := makeUpCode 2368 (s.g3.codeLength .xm2368) s
def execXm2432 (s : State) : Host.Outcome State Fault Refusal := makeUpCode 2432 (s.g3.codeLength .xm2432) s
def execXm2496 (s : State) : Host.Outcome State Fault Refusal := makeUpCode 2496 (s.g3.codeLength .xm2496) s
def execXm2560 (s : State) : Host.Outcome State Fault Refusal := makeUpCode 2560 (s.g3.codeLength .xm2560) s

end Sys2Proof.Machine
end

