-- ==== Sys2Proof/Machine/RleEncode.lean ====
section
/-!
DEFINITION. The RLE encoders ENC_RLE8 and ENC_RLE4 (spec/43_rle_encode.md): the greedy choice of the next unit from the
row's pixels (R283 to R285), and what emitting each kind of unit does (R282, R286 to R289).
-/

namespace Sys2Proof.Machine

/-- The running encoder is ENC_RLE4. -/
def State.encodes4 (s : State) : Bool := s.ctrl.op == Operation.encRle4.code

/-- The depth of the running encoder. -/
def State.encDepth (s : State) : Depth := if s.encodes4 then .d4 else .d8

/-- The row stride of the encoder's input (R281). -/
def State.encStride (s : State) : Nat := stride s.encDepth s.cfg.width.toNat

/-! ### What the encoder sees of the row -/

/-- px(j): pixel j of the row at 8 bpp (R283), read at a place of the step. -/
def State.px (s : State) (place j : Nat) : Byte :=
  s.inRead place (s.eng.r.toNat * stride .d8 s.cfg.width.toNat + j)

/-- B: the data bytes of a row at 4 bpp (R284). -/
def rowBytes4 (width : Nat) : Nat := (width + 1) / 2

/-- by(j): byte j of the row at 4 bpp, read at a place of the step; the pad nibble of an odd width is read as 0 (R284). -/
def State.by4 (s : State) (place j : Nat) : Byte :=
  let e := s.inRead place (s.eng.r.toNat * stride .d4 s.cfg.width.toNat + j)
  if s.cfg.width.toNat % 2 = 1 ∧ j + 1 = rowBytes4 s.cfg.width.toNat then e &&& 0xF0 else e

/-- nib(j, k): the pixels that bytes j to j + k − 1 hold (R284). -/
def nib (width j k : Nat) : Nat := if width % 2 = 1 ∧ j + k = rowBytes4 width then 2 * k - 1 else 2 * k

/-- How many of the `fuel` items from j on equal v, up to the first that does not. -/
def equalCount (item : Nat → Byte) (v : Byte) (j : Nat) : Nat → Nat
  | 0 => 0
  | fuel + 1 => if item j = v then equalCount item v (j + 1) fuel + 1 else 0

/-- run(j) and brun(j): the longest run of equal items at j, at most cap and inside the row's `width` items (R283,
R285). The items are read at place j + 1, so that each run of a step reads for itself, and run(i), which the step asks for
twice, is one (log 7). -/
def runAt (item : Nat → Nat → Byte) (cap width j : Nat) : Nat :=
  equalCount (item (j + 1)) (item (j + 1) j) j (min cap (width - j))

/-- How many of the `fuel` items from j on start no run of the minimum length, up to the first that does. -/
def literalCount (item : Nat → Nat → Byte) (cap minRun width j : Nat) : Nat → Nat
  | 0 => 0
  | fuel + 1 =>
    if runAt item cap width j < minRun then literalCount item cap minRun width (j + 1) fuel + 1 else 0

/-- The literal stretch at i: at most cap items, inside the row (R283, R285). -/
def literalAt (item : Nat → Nat → Byte) (cap minRun width i : Nat) : Nat :=
  literalCount item cap minRun width i (min cap (width - i))

/-- n items from i on. -/
def itemsFrom (item : Nat → Byte) (i n : Nat) : List Byte := (List.range n).map fun t => item (i + t)

/-- The next unit of an RLE8 row that has pixels left (R283). What it emits is read at place 0 (log 7). -/
def State.choose8 (s : State) : Instr :=
  let w := s.cfg.width.toNat
  let i := s.eng.i.toNat
  let k := runAt s.px 255 w i
  let v := s.px 0
  if Config.rle8MinRun ≤ k then .encRun (.ofNat 8 k) (v i)
  else
    let n := literalAt s.px 255 Config.rle8MinRun w i
    if 3 ≤ n then .encAbs (.ofNat 8 n) (itemsFrom v i n)
    else if n = 2 ∧ v i ≠ v (i + 1) then .encShort 1 (v i) (some (v (i + 1)))
    else .encShort (.ofNat 8 n) (v i) none

/-- The next unit of an RLE4 row that has bytes left (R285). What it emits is read at place 0 (log 7). -/
def State.choose4 (s : State) : Instr :=
  let w := s.cfg.width.toNat
  let b := rowBytes4 w
  let i := s.eng.i.toNat
  let k := runAt s.by4 127 b i
  let v := s.by4 0
  if Config.rle4MinRun ≤ k then .encRun (.ofNat 8 (nib w i k)) (v i)
  else
    let m := literalAt s.by4 127 Config.rle4MinRun b i
    let n := nib w i m
    if 3 ≤ n then .encAbs (.ofNat 8 n) (itemsFrom v i m) else .encShort (.ofNat 8 n) (v i) none

/-- The items of a row: pixels at RLE8, bytes at RLE4. -/
def State.rowItems (s : State) : Nat := if s.encodes4 then rowBytes4 s.cfg.width.toNat else s.cfg.width.toNat

/-- The unit the encoder emits next: one of the row, or the row's end (R280, R289). -/
def State.nextUnit (s : State) : Instr :=
  if s.eng.i.toNat < s.rowItems then (if s.encodes4 then s.choose4 else s.choose8)
  else if s.eng.r.toNat + 1 < s.cfg.height.toNat then .encEol
  else .encEob

/-! ### Emitting a unit -/

/-- Emit(u); nothing when the unit does not fit in OUT_LEN (R282). -/
def State.emit (s : State) (u : List Byte) : Option State :=
  let o := s.eng.o.toNat
  if s.cfg.outLen.toNat < o + u.length then none
  else
    let t := s.outWriteList o u
    some { t with
      eng := { t.eng with o := .ofNat 32 (o + u.length) }
      pos := { t.pos with outPos := .ofNat 32 (o + u.length) } }

/-- The row's cursor after units that cover `pixels` pixels in `items` items (R283, R285). -/
def State.cover (s : State) (pixels items : Nat) : State :=
  let cnt := s.eng.cnt.toNat + pixels
  { s with
    eng := { s.eng with cnt := .ofNat 32 cnt, i := .ofNat 32 (s.eng.i.toNat + items) }
    pos := { s.pos with curX := .ofNat 32 cnt } }

/-- The items that an encoded run of c pixels covers: bytes of two pixels at RLE4, the last one perhaps trimmed. -/
def State.runItems (s : State) (c : Nat) : Nat := if s.encodes4 then (c + 1) / 2 else c

/-- A unit takes effect only while an encoder's body runs (log 13). -/
def State.withinEncoder (s : State) (effect : State) : Host.Outcome State Fault Refusal :=
  if s.running .encRle8 .d8 || s.running .encRle4 .d4 then .next effect else .fault .outsideOperation

/-- ENC.RUN (R286). -/
def execEncRun (c v : Byte) (s : State) : Host.Outcome State Fault Refusal :=
  s.withinEncoder
    (match s.emit [c, v] with
    | none => s.raise .bufferOverflow
    | some t => t.cover c.toNat (s.runItems c.toNat))

/-- ENC.ABS (R287). -/
def execEncAbs (n : Byte) (data : List Byte) (s : State) : Host.Outcome State Fault Refusal :=
  s.withinEncoder
    (match s.emit (absBytes n data) with
    | none => s.raise .bufferOverflow
    | some t => t.cover n.toNat data.length)

/-- ENC.SHORT: one encoded run, or two of one pixel each, written whole or not at all (R288, R282,
spec/60_exceptions.md R401, log 5). -/
def execEncShort (c v : Byte) (w : Option Byte) (s : State) : Host.Outcome State Fault Refusal :=
  let second := match w with
    | none => []
    | some w => [1, w]
  s.withinEncoder
    (match s.emit ([c, v] ++ second) with
    | none => s.raise .bufferOverflow
    | some t => t.cover (c.toNat + second.length / 2) (s.runItems (c.toNat + second.length / 2)))

/-- The step that ends a row: the pixel count must be the width, then the row's last unit is emitted (R289, R290). -/
def endRow (unit : List Byte) (next : State → State) (s : State) : Host.Outcome State Fault Refusal :=
  s.withinEncoder
    (if s.eng.cnt ≠ s.cfg.width then s.raise .encCountMismatch
    else
      match s.emit unit with
      | none => s.raise .bufferOverflow
      | some t => next t)

/-- ENC.EOL: the next row begins, its pixel counter and with it CUR_X at 0 (R289, R280, spec/10_state.md R57, R61;
log 3). -/
def execEncEol (s : State) : Host.Outcome State Fault Refusal :=
  endRow [0, 0] (fun s =>
    let r := s.eng.r.toNat + 1
    { s with
      eng := { s.eng with r := .ofNat 32 r, i := 0, cnt := 0 }
      pos := { s.pos with inPos := .ofNat 32 (r * s.encStride), curX := 0, curY := .ofNat 32 r } }) s

/-- ENC.EOB: the stream is complete and the operation ends with success (R289, R280, log 3). -/
def execEncEob (s : State) : Host.Outcome State Fault Refusal :=
  endRow [0, 1] (fun s =>
    State.finish { s with pos := { s.pos with inPos := .ofNat 32 (s.cfg.height.toNat * s.encStride) } }) s

end Sys2Proof.Machine
end

