-- ==== Sys2Proof/Machine/Unpack.lean ====
section
/-!
DEFINITION. The bit-field unpacker UNPACK (spec/44_unpack.md): one pixel a step.
-/

namespace Sys2Proof.Machine

/-- A colour with its alpha. -/
structure Rgba where
  r : Byte
  g : Byte
  b : Byte
  a : Byte
  deriving DecidableEq, Repr

/-- Lookup(v): the colour of a pixel value, opaque; none past the table's end (R332, R341). -/
def State.lookup (s : State) (d : Depth) (v : Nat) : Option Rgba :=
  let e := palEntrySize s.ctrl.flags
  if palEntries d s.cfg ≤ v then none
  else some { b := s.palByte (v * e), g := s.palByte (v * e + 1), r := s.palByte (v * e + 2), a := 255 }

/-- Store(j, x, ...): one output pixel, R, G, B and, when OUTFMT = 1, A (R333). -/
def State.storePixel (s : State) (c : Rgba) : State :=
  let size := outPixelSize s.ctrl.flags
  let k := (s.eng.j.toNat * s.cfg.width.toNat + s.eng.x.toNat) * size
  s.outWriteList k ([c.r, c.g, c.b] ++ if s.ctrl.flags.outfmt then [c.a] else [])

/-- The end of a pixel step: the progress registers show the pixel, and the next pixel, row or end follows (R330,
R335, log 3). -/
def State.nextPixel (s : State) (d : Depth) : State :=
  let w := s.cfg.width.toNat
  let h := s.cfg.height.toNat
  let o := s.eng.o.toNat + outPixelSize s.ctrl.flags
  let t := { s with
    eng := { s.eng with o := .ofNat 32 o }
    pos := { s.pos with outPos := .ofNat 32 o, curX := s.eng.x, curY := s.eng.j } }
  if s.eng.x.toNat + 1 < w then { t with eng := { t.eng with x := .ofNat 32 (s.eng.x.toNat + 1) } }
  else if s.eng.j.toNat + 1 < h then
    { t with eng := { t.eng with
        x := 0, j := .ofNat 32 (s.eng.j.toNat + 1), y := .ofNat 32 (h - 1 - (s.eng.j.toNat + 1)) } }
  else State.finish { t with pos := { t.pos with inPos := .ofNat 32 (stride d w * h) } }

/-- One pixel step at depth d, from the pixel's colour; without a colour the value is past the table (R330, R332). -/
def pixelStep (d : Depth) (color : State → Option Rgba) (s : State) : Host.Outcome State Fault Refusal :=
  s.within .unpack d
    (match color s with
    | none => s.raise .palIndexRange
    | some c => (s.storePixel c).nextPixel d)

/-- PIX1: bit 7 − (x mod 8) of the byte, through the colour table (R334). -/
def execPix1 (e : Byte) (s : State) : Host.Outcome State Fault Refusal :=
  pixelStep .d1 (fun s => s.lookup .d1 (e.getLsbD (7 - s.eng.x.toNat % 8)).toNat) s

/-- PIX4: the high nibble of an even x, the low nibble of an odd x, through the colour table (R336). -/
def execPix4 (h l : Nibble) (s : State) : Host.Outcome State Fault Refusal :=
  pixelStep .d4 (fun s => s.lookup .d4 (if s.eng.x.toNat % 2 = 0 then h else l).toNat) s

/-- PIX8: the byte, through the colour table (R337). -/
def execPix8 (v : Byte) (s : State) : Host.Outcome State Fault Refusal :=
  pixelStep .d8 (fun s => s.lookup .d8 v.toNat) s

/-- PIX24: the bytes B, G, R, opaque (R338). -/
def execPix24 (b g r : Byte) (s : State) : Host.Outcome State Fault Refusal :=
  pixelStep .d24 (fun _ => some { r := r, g := g, b := b, a := 255 }) s

/-- PIX32: the bytes B, G, R, and X as alpha when A32 = 1 (R339). -/
def execPix32 (b g r x : Byte) (s : State) : Host.Outcome State Fault Refusal :=
  pixelStep .d32 (fun s => some { r := r, g := g, b := b, a := if s.ctrl.flags.a32 then x else 255 }) s

end Sys2Proof.Machine
end

