-- ==== Sys2Proof/Machine/Dispatch.lean ====
section
/-!
DEFINITION. The meaning of every instruction: one arm for each constructor of `Instr`, each a direct call of its own
definition.
-/

namespace Sys2Proof.Machine

def exec (i : Instr) (s : State) : Host.Outcome State Fault Refusal :=
  match i with
  | .unpack1 f => Sys2Proof.Machine.execUnpack1 f s
  | .unpack4 f => Sys2Proof.Machine.execUnpack4 f s
  | .unpack8 f => Sys2Proof.Machine.execUnpack8 f s
  | .unpack24 f => Sys2Proof.Machine.execUnpack24 f s
  | .unpack32 f => Sys2Proof.Machine.execUnpack32 f s
  | .decRle8 d f => Sys2Proof.Machine.execDecRle8 d f s
  | .decRle4 d f => Sys2Proof.Machine.execDecRle4 d f s
  | .decHuff d f => Sys2Proof.Machine.execDecHuff d f s
  | .decRle24 d f => Sys2Proof.Machine.execDecRle24 d f s
  | .encRle8 d f => Sys2Proof.Machine.execEncRle8 d f s
  | .encRle4 d f => Sys2Proof.Machine.execEncRle4 d f s
  | .reservedOp5 bpp f => Sys2Proof.Machine.execReservedOp5 bpp f s
  | .reservedOp6 bpp f => Sys2Proof.Machine.execReservedOp6 bpp f s
  | .reservedOp7 bpp f => Sys2Proof.Machine.execReservedOp7 bpp f s
  | .reservedOp8 bpp f => Sys2Proof.Machine.execReservedOp8 bpp f s
  | .reservedOpB bpp f => Sys2Proof.Machine.execReservedOpB bpp f s
  | .reservedOpC bpp f => Sys2Proof.Machine.execReservedOpC bpp f s
  | .reservedOpD bpp f => Sys2Proof.Machine.execReservedOpD bpp f s
  | .reservedOpE bpp f => Sys2Proof.Machine.execReservedOpE bpp f s
  | .reservedOpF bpp f => Sys2Proof.Machine.execReservedOpF bpp f s
  | .reservedBpp5 op f => Sys2Proof.Machine.execReservedBpp5 op f s
  | .reservedBpp6 op f => Sys2Proof.Machine.execReservedBpp6 op f s
  | .reservedBpp7 op f => Sys2Proof.Machine.execReservedBpp7 op f s
  | .rle8Run c v => Sys2Proof.Machine.execRle8Run c v s
  | .rle8Eol => Sys2Proof.Machine.execRle8Eol s
  | .rle8Eob => Sys2Proof.Machine.execRle8Eob s
  | .rle8Delta dx dy => Sys2Proof.Machine.execRle8Delta dx dy s
  | .rle8Abs n data => Sys2Proof.Machine.execRle8Abs n data s
  | .rle4Run c h l => Sys2Proof.Machine.execRle4Run c h l s
  | .rle4Eol => Sys2Proof.Machine.execRle4Eol s
  | .rle4Eob => Sys2Proof.Machine.execRle4Eob s
  | .rle4Delta dx dy => Sys2Proof.Machine.execRle4Delta dx dy s
  | .rle4Abs n data => Sys2Proof.Machine.execRle4Abs n data s
  | .rle24Run c b0 b1 b2 => Sys2Proof.Machine.execRle24Run c b0 b1 b2 s
  | .rle24Eol => Sys2Proof.Machine.execRle24Eol s
  | .rle24Eob => Sys2Proof.Machine.execRle24Eob s
  | .rle24Delta dx dy => Sys2Proof.Machine.execRle24Delta dx dy s
  | .rle24Abs n data => Sys2Proof.Machine.execRle24Abs n data s
  | .encRun c v => Sys2Proof.Machine.execEncRun c v s
  | .encAbs n data => Sys2Proof.Machine.execEncAbs n data s
  | .encShort c v w => Sys2Proof.Machine.execEncShort c v w s
  | .encEol => Sys2Proof.Machine.execEncEol s
  | .encEob => Sys2Proof.Machine.execEncEob s
  | .wt0 => Sys2Proof.Machine.execWt0 s
  | .wt1 => Sys2Proof.Machine.execWt1 s
  | .wt2 => Sys2Proof.Machine.execWt2 s
  | .wt3 => Sys2Proof.Machine.execWt3 s
  | .wt4 => Sys2Proof.Machine.execWt4 s
  | .wt5 => Sys2Proof.Machine.execWt5 s
  | .wt6 => Sys2Proof.Machine.execWt6 s
  | .wt7 => Sys2Proof.Machine.execWt7 s
  | .wt8 => Sys2Proof.Machine.execWt8 s
  | .wt9 => Sys2Proof.Machine.execWt9 s
  | .wt10 => Sys2Proof.Machine.execWt10 s
  | .wt11 => Sys2Proof.Machine.execWt11 s
  | .wt12 => Sys2Proof.Machine.execWt12 s
  | .wt13 => Sys2Proof.Machine.execWt13 s
  | .wt14 => Sys2Proof.Machine.execWt14 s
  | .wt15 => Sys2Proof.Machine.execWt15 s
  | .wt16 => Sys2Proof.Machine.execWt16 s
  | .wt17 => Sys2Proof.Machine.execWt17 s
  | .wt18 => Sys2Proof.Machine.execWt18 s
  | .wt19 => Sys2Proof.Machine.execWt19 s
  | .wt20 => Sys2Proof.Machine.execWt20 s
  | .wt21 => Sys2Proof.Machine.execWt21 s
  | .wt22 => Sys2Proof.Machine.execWt22 s
  | .wt23 => Sys2Proof.Machine.execWt23 s
  | .wt24 => Sys2Proof.Machine.execWt24 s
  | .wt25 => Sys2Proof.Machine.execWt25 s
  | .wt26 => Sys2Proof.Machine.execWt26 s
  | .wt27 => Sys2Proof.Machine.execWt27 s
  | .wt28 => Sys2Proof.Machine.execWt28 s
  | .wt29 => Sys2Proof.Machine.execWt29 s
  | .wt30 => Sys2Proof.Machine.execWt30 s
  | .wt31 => Sys2Proof.Machine.execWt31 s
  | .wt32 => Sys2Proof.Machine.execWt32 s
  | .wt33 => Sys2Proof.Machine.execWt33 s
  | .wt34 => Sys2Proof.Machine.execWt34 s
  | .wt35 => Sys2Proof.Machine.execWt35 s
  | .wt36 => Sys2Proof.Machine.execWt36 s
  | .wt37 => Sys2Proof.Machine.execWt37 s
  | .wt38 => Sys2Proof.Machine.execWt38 s
  | .wt39 => Sys2Proof.Machine.execWt39 s
  | .wt40 => Sys2Proof.Machine.execWt40 s
  | .wt41 => Sys2Proof.Machine.execWt41 s
  | .wt42 => Sys2Proof.Machine.execWt42 s
  | .wt43 => Sys2Proof.Machine.execWt43 s
  | .wt44 => Sys2Proof.Machine.execWt44 s
  | .wt45 => Sys2Proof.Machine.execWt45 s
  | .wt46 => Sys2Proof.Machine.execWt46 s
  | .wt47 => Sys2Proof.Machine.execWt47 s
  | .wt48 => Sys2Proof.Machine.execWt48 s
  | .wt49 => Sys2Proof.Machine.execWt49 s
  | .wt50 => Sys2Proof.Machine.execWt50 s
  | .wt51 => Sys2Proof.Machine.execWt51 s
  | .wt52 => Sys2Proof.Machine.execWt52 s
  | .wt53 => Sys2Proof.Machine.execWt53 s
  | .wt54 => Sys2Proof.Machine.execWt54 s
  | .wt55 => Sys2Proof.Machine.execWt55 s
  | .wt56 => Sys2Proof.Machine.execWt56 s
  | .wt57 => Sys2Proof.Machine.execWt57 s
  | .wt58 => Sys2Proof.Machine.execWt58 s
  | .wt59 => Sys2Proof.Machine.execWt59 s
  | .wt60 => Sys2Proof.Machine.execWt60 s
  | .wt61 => Sys2Proof.Machine.execWt61 s
  | .wt62 => Sys2Proof.Machine.execWt62 s
  | .wt63 => Sys2Proof.Machine.execWt63 s
  | .wm64 => Sys2Proof.Machine.execWm64 s
  | .wm128 => Sys2Proof.Machine.execWm128 s
  | .wm192 => Sys2Proof.Machine.execWm192 s
  | .wm256 => Sys2Proof.Machine.execWm256 s
  | .wm320 => Sys2Proof.Machine.execWm320 s
  | .wm384 => Sys2Proof.Machine.execWm384 s
  | .wm448 => Sys2Proof.Machine.execWm448 s
  | .wm512 => Sys2Proof.Machine.execWm512 s
  | .wm576 => Sys2Proof.Machine.execWm576 s
  | .wm640 => Sys2Proof.Machine.execWm640 s
  | .wm704 => Sys2Proof.Machine.execWm704 s
  | .wm768 => Sys2Proof.Machine.execWm768 s
  | .wm832 => Sys2Proof.Machine.execWm832 s
  | .wm896 => Sys2Proof.Machine.execWm896 s
  | .wm960 => Sys2Proof.Machine.execWm960 s
  | .wm1024 => Sys2Proof.Machine.execWm1024 s
  | .wm1088 => Sys2Proof.Machine.execWm1088 s
  | .wm1152 => Sys2Proof.Machine.execWm1152 s
  | .wm1216 => Sys2Proof.Machine.execWm1216 s
  | .wm1280 => Sys2Proof.Machine.execWm1280 s
  | .wm1344 => Sys2Proof.Machine.execWm1344 s
  | .wm1408 => Sys2Proof.Machine.execWm1408 s
  | .wm1472 => Sys2Proof.Machine.execWm1472 s
  | .wm1536 => Sys2Proof.Machine.execWm1536 s
  | .wm1600 => Sys2Proof.Machine.execWm1600 s
  | .wm1664 => Sys2Proof.Machine.execWm1664 s
  | .wm1728 => Sys2Proof.Machine.execWm1728 s
  | .bt0 => Sys2Proof.Machine.execBt0 s
  | .bt1 => Sys2Proof.Machine.execBt1 s
  | .bt2 => Sys2Proof.Machine.execBt2 s
  | .bt3 => Sys2Proof.Machine.execBt3 s
  | .bt4 => Sys2Proof.Machine.execBt4 s
  | .bt5 => Sys2Proof.Machine.execBt5 s
  | .bt6 => Sys2Proof.Machine.execBt6 s
  | .bt7 => Sys2Proof.Machine.execBt7 s
  | .bt8 => Sys2Proof.Machine.execBt8 s
  | .bt9 => Sys2Proof.Machine.execBt9 s
  | .bt10 => Sys2Proof.Machine.execBt10 s
  | .bt11 => Sys2Proof.Machine.execBt11 s
  | .bt12 => Sys2Proof.Machine.execBt12 s
  | .bt13 => Sys2Proof.Machine.execBt13 s
  | .bt14 => Sys2Proof.Machine.execBt14 s
  | .bt15 => Sys2Proof.Machine.execBt15 s
  | .bt16 => Sys2Proof.Machine.execBt16 s
  | .bt17 => Sys2Proof.Machine.execBt17 s
  | .bt18 => Sys2Proof.Machine.execBt18 s
  | .bt19 => Sys2Proof.Machine.execBt19 s
  | .bt20 => Sys2Proof.Machine.execBt20 s
  | .bt21 => Sys2Proof.Machine.execBt21 s
  | .bt22 => Sys2Proof.Machine.execBt22 s
  | .bt23 => Sys2Proof.Machine.execBt23 s
  | .bt24 => Sys2Proof.Machine.execBt24 s
  | .bt25 => Sys2Proof.Machine.execBt25 s
  | .bt26 => Sys2Proof.Machine.execBt26 s
  | .bt27 => Sys2Proof.Machine.execBt27 s
  | .bt28 => Sys2Proof.Machine.execBt28 s
  | .bt29 => Sys2Proof.Machine.execBt29 s
  | .bt30 => Sys2Proof.Machine.execBt30 s
  | .bt31 => Sys2Proof.Machine.execBt31 s
  | .bt32 => Sys2Proof.Machine.execBt32 s
  | .bt33 => Sys2Proof.Machine.execBt33 s
  | .bt34 => Sys2Proof.Machine.execBt34 s
  | .bt35 => Sys2Proof.Machine.execBt35 s
  | .bt36 => Sys2Proof.Machine.execBt36 s
  | .bt37 => Sys2Proof.Machine.execBt37 s
  | .bt38 => Sys2Proof.Machine.execBt38 s
  | .bt39 => Sys2Proof.Machine.execBt39 s
  | .bt40 => Sys2Proof.Machine.execBt40 s
  | .bt41 => Sys2Proof.Machine.execBt41 s
  | .bt42 => Sys2Proof.Machine.execBt42 s
  | .bt43 => Sys2Proof.Machine.execBt43 s
  | .bt44 => Sys2Proof.Machine.execBt44 s
  | .bt45 => Sys2Proof.Machine.execBt45 s
  | .bt46 => Sys2Proof.Machine.execBt46 s
  | .bt47 => Sys2Proof.Machine.execBt47 s
  | .bt48 => Sys2Proof.Machine.execBt48 s
  | .bt49 => Sys2Proof.Machine.execBt49 s
  | .bt50 => Sys2Proof.Machine.execBt50 s
  | .bt51 => Sys2Proof.Machine.execBt51 s
  | .bt52 => Sys2Proof.Machine.execBt52 s
  | .bt53 => Sys2Proof.Machine.execBt53 s
  | .bt54 => Sys2Proof.Machine.execBt54 s
  | .bt55 => Sys2Proof.Machine.execBt55 s
  | .bt56 => Sys2Proof.Machine.execBt56 s
  | .bt57 => Sys2Proof.Machine.execBt57 s
  | .bt58 => Sys2Proof.Machine.execBt58 s
  | .bt59 => Sys2Proof.Machine.execBt59 s
  | .bt60 => Sys2Proof.Machine.execBt60 s
  | .bt61 => Sys2Proof.Machine.execBt61 s
  | .bt62 => Sys2Proof.Machine.execBt62 s
  | .bt63 => Sys2Proof.Machine.execBt63 s
  | .bm64 => Sys2Proof.Machine.execBm64 s
  | .bm128 => Sys2Proof.Machine.execBm128 s
  | .bm192 => Sys2Proof.Machine.execBm192 s
  | .bm256 => Sys2Proof.Machine.execBm256 s
  | .bm320 => Sys2Proof.Machine.execBm320 s
  | .bm384 => Sys2Proof.Machine.execBm384 s
  | .bm448 => Sys2Proof.Machine.execBm448 s
  | .bm512 => Sys2Proof.Machine.execBm512 s
  | .bm576 => Sys2Proof.Machine.execBm576 s
  | .bm640 => Sys2Proof.Machine.execBm640 s
  | .bm704 => Sys2Proof.Machine.execBm704 s
  | .bm768 => Sys2Proof.Machine.execBm768 s
  | .bm832 => Sys2Proof.Machine.execBm832 s
  | .bm896 => Sys2Proof.Machine.execBm896 s
  | .bm960 => Sys2Proof.Machine.execBm960 s
  | .bm1024 => Sys2Proof.Machine.execBm1024 s
  | .bm1088 => Sys2Proof.Machine.execBm1088 s
  | .bm1152 => Sys2Proof.Machine.execBm1152 s
  | .bm1216 => Sys2Proof.Machine.execBm1216 s
  | .bm1280 => Sys2Proof.Machine.execBm1280 s
  | .bm1344 => Sys2Proof.Machine.execBm1344 s
  | .bm1408 => Sys2Proof.Machine.execBm1408 s
  | .bm1472 => Sys2Proof.Machine.execBm1472 s
  | .bm1536 => Sys2Proof.Machine.execBm1536 s
  | .bm1600 => Sys2Proof.Machine.execBm1600 s
  | .bm1664 => Sys2Proof.Machine.execBm1664 s
  | .bm1728 => Sys2Proof.Machine.execBm1728 s
  | .xm1792 => Sys2Proof.Machine.execXm1792 s
  | .xm1856 => Sys2Proof.Machine.execXm1856 s
  | .xm1920 => Sys2Proof.Machine.execXm1920 s
  | .xm1984 => Sys2Proof.Machine.execXm1984 s
  | .xm2048 => Sys2Proof.Machine.execXm2048 s
  | .xm2112 => Sys2Proof.Machine.execXm2112 s
  | .xm2176 => Sys2Proof.Machine.execXm2176 s
  | .xm2240 => Sys2Proof.Machine.execXm2240 s
  | .xm2304 => Sys2Proof.Machine.execXm2304 s
  | .xm2368 => Sys2Proof.Machine.execXm2368 s
  | .xm2432 => Sys2Proof.Machine.execXm2432 s
  | .xm2496 => Sys2Proof.Machine.execXm2496 s
  | .xm2560 => Sys2Proof.Machine.execXm2560 s
  | .eol fill => Sys2Proof.Machine.execEol fill s
  | .pix1 e => Sys2Proof.Machine.execPix1 e s
  | .pix4 h l => Sys2Proof.Machine.execPix4 h l s
  | .pix8 v => Sys2Proof.Machine.execPix8 v s
  | .pix24 b g r => Sys2Proof.Machine.execPix24 b g r s
  | .pix32 b g r x => Sys2Proof.Machine.execPix32 b g r x s

end Sys2Proof.Machine
end

