-- ==== Sys2Proof/Machine/Fetch.lean ====
section
/-!
DEFINITION. What the engine interprets next: its command word in its first step (spec/20_memory.md R95), then the units,
codes, emitted units or pixels of the running operation. Also the engine's step around them, and the placing of one
instruction where the engine reads it next.
-/

namespace Sys2Proof.Machine

/-- What a fetch finds. -/
inductive Fetched
  /-- An instruction. -/
  | run (i : Instr)
  /-- The end of the input at a unit boundary (spec/40_rle_decode.md R156). -/
  | endOfInput
  /-- No instruction: the operation fails (spec/40_rle_decode.md R151, spec/41_g3_decode.md R202). -/
  | failed (c : ErrCode)
  /-- No operation runs that could read one; no run reaches it (log 13). -/
  | outside
  deriving DecidableEq, Repr

/-! ### The fetch of each operation -/

/-- The command word latched in CTRL (R95). -/
def State.latchedCommand (s : State) : Instr := commandOf s.ctrl.op s.ctrl.bpp s.ctrl.flags

/-- The error of a decoder that read no instruction. -/
def rejectCode : Reject → ErrCode
  | .badCode => .g3BadCode
  | .truncated | .notACommand | .wrongFormat => .truncated

/-- The next unit of an RLE stream (R150, R151, R156). -/
def State.fetchUnit (s : State) (v : Rle) : Fetched :=
  let p := s.eng.p.toNat
  let rest := s.cfg.inLen.toNat - p
  if rest = 0 then .endOfInput
  else
    match decodeUnit v (s.inBytes p rest) with
    | .ok (i, _) => .run i
    | .error e => .failed (rejectCode e)

/-- The next code of a Group-3 stream (R202). -/
def State.fetchCode (s : State) : Fetched :=
  let q := s.eng.q.toNat
  match decodeCode s.g3 s.eng.color (s.inBits q (8 * s.cfg.inLen.toNat - q)) with
  | .ok (i, _) => .run i
  | .error e => .failed (rejectCode e)

/-- The next pixel of the unpacker: the bytes of the file row that hold pixel x (spec/30_encoding.md R125,
spec/44_unpack.md R330). -/
def State.fetchPixel (s : State) (d : Depth) : Fetched :=
  let k := s.eng.y.toNat * stride d s.cfg.width.toNat + s.eng.x.toNat * d.bits / 8
  match decodePixel d (s.inBytes k ((d.bits + 7) / 8)) with
  | .ok (i, _) => .run i
  | .error e => .failed (rejectCode e)

/-- The fetch in the body of an operation. -/
def State.fetchBody (s : State) (op : Operation) (d : Depth) : Fetched :=
  if s.running op d then
    match op with
    | .decRle8 => s.fetchUnit .rle8
    | .decRle4 => s.fetchUnit .rle4
    | .decRle24 => s.fetchUnit .rle24
    | .decHuff => s.fetchCode
    | .encRle8 | .encRle4 => .run s.nextUnit
    | .unpack => s.fetchPixel d
  else .outside

/-- What the engine interprets next. -/
def State.fetch (s : State) : Fetched :=
  match s.eng.phase with
  | .start => .run s.latchedCommand
  | .body =>
    match Operation.ofCode s.ctrl.op, Depth.ofCode s.ctrl.bpp with
    | some op, some d => s.fetchBody op d
    | _, _ => .outside
  | .idle | .fill _ => .outside

/-! ### The engine's step -/

/-- The input ended at a unit boundary: success, with EOBI (R156). -/
def State.endOfInput (s : State) : State := State.finish { s with status := { s.status with eobi := true } }

/-- One engine step that interprets something. -/
def interpretStep (s : State) : Host.Outcome State Fault Refusal :=
  match s.fetch with
  | .run i => exec i s
  | .endOfInput => .next s.endOfInput
  | .failed c => .next (s.raise c)
  | .outside => .fault .outsideOperation

/-- One turn of the engine: nothing while reset is asserted (spec/70_reset_and_hazards.md R450) or while idle
(spec/60_exceptions.md R426); else one atomic step with fresh draws. -/
def engineStep (s : State) : Host.Outcome State Fault Refusal :=
  if s.plat.inReset then .next s
  else
    match s.eng.phase with
    | .idle => .next s
    | .fill k => zeroFillStep k s.drawn
    | .start | .body => interpretStep s.drawn

/-! ### Placing one instruction for the next step (log 15) -/

/-- Bytes written to memory from an address on. -/
def Memory.writeList (m : Memory) (a : Nat) : List Byte → Memory
  | [] => m
  | v :: vs => (m.write a v).writeList (a + 1) vs

/-- Bits packed into bytes, first bit in bit 7, the last byte filled with 0 bits (spec/20_memory.md R82). -/
def packBits (bits : List Bool) : List Byte :=
  (List.range ((bits.length + 7) / 8)).map fun k =>
    .ofNat 8 ((List.range 8).foldl (fun v n => 2 * v + (bits.getD (8 * k + n) false).toNat) 0)

/-- The platform lets the engine move next. -/
def Platform.engineNext (p : Platform) : Platform := { p with inReset := false, inputs := [], races := [], unseen := [] }

/-- A command word latched by a START write. -/
def State.placeCommand (s : State) (w : Word) : State :=
  let t := { s with ctrl := Ctrl.ofWord w, plat := s.plat.engineNext }
  t.startAction

/-- The body of an operation about to read its first input, on an image of w × h pixels. -/
def State.placeInput (s : State) (op : Operation) (d : Depth) (input : List Byte) (w h outLen : Nat) : State :=
  { s with
    ctrl := { s.ctrl with op := op.code, bpp := d.code }
    status := .zero
    pos := .zero
    cfg := { width := .ofNat 32 w, height := .ofNat 32 h, inBase := 0x2000, inLen := .ofNat 32 input.length,
             outBase := 0x1000, outLen := .ofNat 32 outLen, palBase := 0x4000, palCount := 0 }
    eng := { Engine.zero with phase := .body }
    mem := s.mem.writeList 0x2000 input
    plat := s.plat.engineNext }

/-- A Group-3 code of the default table at a colour, its stream's leading EOL already read, over 8 zero-filled output
bytes. -/
def State.placeCode (s : State) (c : Color) (bits : List Bool) : State :=
  let t := s.placeInput .decHuff .d1 (packBits bits) 4096 1 8
  { t with
    eng := { t.eng with color := c, started := true, eolRun := 1 }
    mem := t.mem.writeList 0x1000 (List.replicate 8 0)
    g3 := t4Table }

/-- One instruction's words placed where the engine reads them next. -/
def State.place (s : State) (ctx : Context) (w : Words) : State :=
  match ctx, w with
  | .command, .command w => s.placeCommand w
  | .rle v, .bytes bs => s.placeInput (Rle.operation v) (Rle.depth v) bs 4096 1 1024
  | .g3 c, .code bits => s.placeCode c bits
  | .pix d, .bytes bs =>
    s.placeInput .unpack d (bs ++ List.replicate (4 - bs.length) 0) 1 1 (outPixelSize s.ctrl.flags)
  | _, _ => s

end Sys2Proof.Machine
end

