-- ==== Sys2Proof/Machine/Step.lean ====
section
/-!
DEFINITION. One step of the machine: what the platform has pending lands first; with nothing pending the engine moves
(spec/20_memory.md R90, log 1).
-/

namespace Sys2Proof.Machine

/-- The state with other pending inputs. -/
def State.withInputs (s : State) (l : List Input) : State := { s with plat := { s.plat with inputs := l } }

/-- One step. -/
def step (s : State) : Host.Outcome State Fault Refusal :=
  match s.plat.inputs with
  | [] => engineStep s
  | .engine :: rest => engineStep (s.withInputs rest)
  | inp :: rest => hostStep inp (s.withInputs rest)

/-- The state whose next step runs the instruction that the opcode table numbers w (log 15). -/
def State.withFetchWord (s : State) (nbits w : Nat) : State :=
  s.place (tableWords nbits w).1 (tableWords nbits w).2

end Sys2Proof.Machine
end

