-- ==== Sys2Proof/Safety.lean ====
section
/-!
DEFINITION. What counts as a safe state and a safe step, in the terms the claims use. `State.inv` gathers what the spec says
of every state between two steps; a step is safe when it does not stop with a fault.
-/

namespace Sys2Proof

/-- The bytes of an encoded instruction of a byte stream. -/
def Words.toBytes : Words → List Byte
  | .bytes bs => bs
  | .command _ | .code _ => []

end Sys2Proof

namespace Sys2Proof.Machine

/-- A step does not stop with a fault. -/
def Safe (o : Host.Outcome State Fault Refusal) : Prop := ∀ f, o ≠ .fault f

/-- The memory is in its canonical form. -/
def State.memOk (s : State) : Bool := s.mem.wf

/-- While BUSY, DONE, EOBI and ERRCODE are what START left them (spec/10_state.md R44, R46). -/
def State.statusOk (s : State) : Bool := !s.busy || s.status == .zero

/-- RLE decode: the progress registers mirror p, x and y; OUT_POS stays 0 (R55 to R58). -/
def State.rleOk (s : State) : Bool :=
  s.pos.inPos == s.eng.p && s.pos.outPos == 0 && s.pos.curX == s.eng.x && s.pos.curY == s.eng.y

/-- Huffman decode: the mirrors (R55 to R58), at most five EOLs in a row so far (spec/41_g3_decode.md R205), and the runs of
the line inside the width (R206, R207). -/
def State.g3Ok (s : State) : Bool :=
  s.pos.inPos.toNat == (s.eng.q.toNat + 7) / 8 && s.pos.outPos == 0 && s.pos.curX == s.eng.x &&
    s.pos.curY == s.eng.y && decide (s.eng.eolRun.toNat < Config.g3EndRun) &&
    decide (s.eng.x.toNat + s.eng.pend.toNat ≤ s.cfg.width.toNat)

/-- The pixels that the first i items of a row hold (spec/43_rle_encode.md R284). -/
def State.pixelsOf (s : State) (i : Nat) : Nat := if s.encodes4 then min (2 * i) s.cfg.width.toNat else i

/-- Encoders: the mirrors (R55 to R58, R61), the stream inside OUT, and cnt the pixels of the items covered
(spec/43_rle_encode.md R290). -/
def State.encOk (s : State) : Bool :=
  s.pos.outPos == s.eng.o && decide (s.eng.o.toNat ≤ s.cfg.outLen.toNat) &&
    s.pos.inPos.toNat == s.eng.r.toNat * s.encStride && s.pos.curY == s.eng.r &&
    decide (s.eng.i.toNat ≤ s.rowItems) && s.eng.cnt.toNat == s.pixelsOf s.eng.i.toNat &&
    s.pos.curX == s.eng.cnt

/-- Unpacker: o and OUT_POS count the pixels converted, IN_POS is 0, and CUR_X, CUR_Y show the last one
(spec/44_unpack.md R335). -/
def State.unpackOk (s : State) : Bool :=
  let w := s.cfg.width.toNat
  let x := s.eng.x.toNat
  let j := s.eng.j.toNat
  s.eng.o.toNat == (j * w + x) * outPixelSize s.ctrl.flags && s.pos.outPos == s.eng.o && s.pos.inPos == 0 &&
    (if 0 < x then s.pos.curX.toNat == x - 1 && s.pos.curY.toNat == j
     else if 0 < j then s.pos.curX.toNat == w - 1 && s.pos.curY.toNat == j - 1
     else s.pos.curX == 0 && s.pos.curY == 0)

/-- The body of an operation: its configuration passes the START checks, and its own conditions hold. -/
def State.bodyOk (s : State) : Bool :=
  match Operation.ofCode s.ctrl.op, Depth.ofCode s.ctrl.bpp with
  | some op, some d =>
    s.running op d &&
      match op with
      | .decRle8 | .decRle4 | .decRle24 => s.rleOk
      | .decHuff => s.g3Ok
      | .encRle8 | .encRle4 => s.encOk
      | .unpack => s.unpackOk
  | _, _ => false

/-- The zero-fill: a decoder whose configuration passes the START checks has output byte k left to fill, its hidden state as
the first step left it (spec/30_encoding.md R114, spec/10_state.md R61). -/
def State.fillOk (s : State) (k : Word) : Bool :=
  match Operation.ofCode s.ctrl.op, Depth.ofCode s.ctrl.bpp with
  | some op, some d =>
    Operation.isDecoder op && configError op d s.ctrl.flags s.cfg == none && decide (k.toNat < fillLength d s.cfg) &&
      (s.initialise op).eng == s.eng
  | _, _ => false

/-- What holds between two steps, by the engine's phase. -/
def State.phaseOk (s : State) : Bool :=
  match s.eng.phase with
  | .idle => true
  | .start => s.pos == .zero
  | .fill k => s.pos == .zero && s.fillOk k
  | .body => s.bodyOk

/-- What holds of every state between two steps. -/
def State.inv (s : State) : Bool := s.memOk && s.statusOk && s.phaseOk

/-! ### The terms of the statements -/

/-- The engine's turn comes: the platform lets it move, and t is the state it steps from (spec/20_memory.md R90). -/
def State.turn (s t : State) : Prop :=
  s.plat.inReset = false ∧
    ((s.plat.inputs = [] ∧ t = s.drawn) ∨ ∃ rest, s.plat.inputs = .engine :: rest ∧ t = (s.withInputs rest).drawn)

/-- The platform holds nothing back: no reset, nothing pending, no breach of the hazard rule (spec/20_memory.md R92). -/
def State.calm (s : State) : Prop := s.plat.inReset = false ∧ s.plat.inputs = [] ∧ s.plat.races = []

/-- How an operation without races ends: BUSY 0 and DONE 1, and OUT lent until the host observes the end (log 30); all else
stays (spec/60_exceptions.md R402, spec/70_reset_and_hazards.md R460). -/
def State.done (s : State) : State :=
  { s with
    status := { s.status with done := true }
    eng := { s.eng with phase := .idle }
    plat := { s.plat with unseen := { base := s.cfg.outBase, len := s.cfg.outLen } :: s.plat.unseen } }

/-- How an operation without races ends with an error code (spec/60_exceptions.md R401). -/
def State.ended (s : State) (c : ErrCode) : State := { s.done with status := { s.done.status with errcode := c } }

/-- The address of the first byte of file row y of OUT at depth d (spec/00_scope.md R9, spec/40_rle_decode.md R152). -/
def State.outRow (s : State) (d : Depth) (y : Nat) : Nat := s.cfg.outBase.toNat + y * stride d s.cfg.width.toNat

/-- Pixel x of a 4-bpp row whose first byte is at `base`: the high nibble of its byte when x is even (spec/30_encoding.md
R125). -/
def State.nibbleAt (s : State) (base x : Nat) : Nibble :=
  if x % 2 = 0 then (s.memByte (base + x / 2)).extractLsb' 4 4 else (s.memByte (base + x / 2)).extractLsb' 0 4

/-- Pixel x of a 1-bpp row whose first byte is at `base`: bit 7 − (x mod 8) of its byte (spec/30_encoding.md R125). -/
def State.bitAt (s : State) (base x : Nat) : Bool := (s.memByte (base + x / 8)).getLsbD (7 - x % 8)

/-! ### The START checks in the spec's own terms (spec/60_exceptions.md R403) -/

/-- Two regions share a byte address (spec/20_memory.md R89). -/
def shareByte (base len base' len' : Nat) : Prop :=
  ∃ a, (base ≤ a ∧ a < base + len) ∧ (base' ≤ a ∧ a < base' + len')

/-- Checks 3 to 8 of R403 pass. -/
def SetupLegal (op : Operation) (d : Depth) (f : CmdFlags) (g : Cfg) : Prop :=
  (∀ b, op.depth? = some b → d = b) ∧
  (1 ≤ g.width.toNat ∧ g.width.toNat ≤ 2 ^ 31 - 1) ∧ (1 ≤ g.height.toNat ∧ g.height.toNat ≤ 2 ^ 31 - 1) ∧
  (palUsed op d = true → g.palCount.toNat ≤ 256) ∧
  g.inBase.toNat + g.inLen.toNat ≤ 2 ^ 32 ∧ g.outBase.toNat + g.outLen.toNat ≤ 2 ^ 32 ∧
  (palUsed op d = true → g.palBase.toNat + palEntries d g * palEntrySize f ≤ 2 ^ 32) ∧
  ¬ shareByte g.outBase.toNat g.outLen.toNat g.inBase.toNat g.inLen.toNat ∧
  (palUsed op d = true →
    ¬ shareByte g.outBase.toNat g.outLen.toNat g.palBase.toNat (palEntries d g * palEntrySize f)) ∧
  (op = .unpack → g.outLen.toNat = g.width.toNat * g.height.toNat * outPixelSize f)

/-- Check 9 of R403 passes: an encoder or the unpacker has its whole input. -/
def InputCovers (op : Operation) (d : Depth) (g : Cfg) : Prop :=
  op = .unpack ∨ op = .encRle8 ∨ op = .encRle4 → stride d g.width.toNat * g.height.toNat ≤ g.inLen.toNat

/-! ### The encoders' choice in the spec's own terms (spec/43_rle_encode.md R283, R285) -/

/-- k is run(j): the largest length, from 1 to cap and inside the row's `width` items, of equal items at j. -/
def IsRunAt (item : Nat → Byte) (cap width j k : Nat) : Prop :=
  1 ≤ k ∧ k ≤ min cap (width - j) ∧ (∀ t < k, item (j + t) = item j) ∧
    (k < min cap (width - j) → item (j + k) ≠ item j)

/-- n is the length of the literal stretch at i: up to cap items inside the row before any run of the minimum length. -/
def IsLiteralAt (item : Nat → Byte) (cap minRun width i n : Nat) : Prop :=
  n ≤ min cap (width - i) ∧ (∀ t < n, ∃ k < minRun, IsRunAt item cap width (i + t) k) ∧
    (n < min cap (width - i) → ∃ k, minRun ≤ k ∧ IsRunAt item cap width (i + n) k)

/-- The pixels that an RLE8 unit stands for (spec/30_encoding.md R116, R120). -/
def unitPixels8 : Instr → List Byte
  | .rle8Run c v => List.replicate c.toNat v
  | .rle8Abs n data => data.take n.toNat
  | _ => []

/-- The pixels that an RLE4 unit stands for (spec/30_encoding.md R117, R120). -/
def unitPixels4 : Instr → List Nibble
  | .rle4Run c h l => runPixels4 c.toNat h l
  | .rle4Abs n data => absPixels4 n.toNat data
  | _ => []

/-- Pixel x of the encoder's current row at 4 bpp (spec/30_encoding.md R125). -/
def State.rowNibble (s : State) (x : Nat) : Nibble :=
  let e := s.memByte (s.cfg.inBase.toNat + (s.eng.r.toNat * stride .d4 s.cfg.width.toNat + x / 2))
  if x % 2 = 0 then e.extractLsb' 4 4 else e.extractLsb' 0 4

/-! ### The shape of a unit's outcomes -/

/-- The state after a unit or code that wrote memory m: p, x, y and the registers that mirror them (spec/40_rle_decode.md
R150); nothing else changes. -/
def State.afterUnit (s : State) (m : Memory) (p x y : Nat) : State :=
  { s with
    mem := m
    eng := { s.eng with p := .ofNat 32 p, x := .ofNat 32 x, y := .ofNat 32 y }
    pos := { s.pos with inPos := .ofNat 32 p, curX := .ofNat 32 x, curY := .ofNat 32 y } }

/-- The byte offset in OUT of the last bit of n pixels from the cursor: `last` of spec/40_rle_decode.md R153. -/
def State.lastByte (s : State) (d : Depth) (n : Nat) : Nat :=
  s.eng.y.toNat * stride d s.cfg.width.toNat + ((s.eng.x.toNat + n) * d.bits - 1) / 8

/-- The outcomes of an RLE unit of len bytes that writes n pixels, in the order of spec/40_rle_decode.md R168; `written`
says what memory then holds. -/
def PixelUnit (i : Instr) (s : State) (d : Depth) (len n : Nat) (written : State → Prop) : Prop :=
  let p := s.eng.p.toNat
  let x := s.eng.x.toNat
  let y := s.eng.y.toNat
  if s.cfg.inLen.toNat < p + len then exec i s = .next (s.ended .truncated)
  else if s.cfg.width.toNat < x + n then exec i s = .next (s.ended .widthOverflow)
  else if s.cfg.height.toNat ≤ y ∨ s.cfg.outLen.toNat ≤ s.lastByte d n then exec i s = .next (s.ended .bufferOverflow)
  else ∃ m, exec i s = .next (s.afterUnit m (p + len) (x + n) y) ∧ written { s with mem := m }

/-- The registers and the engine after a Group-3 code of len bits: the engine e with q moved on, IN_POS, CUR_X and CUR_Y
(spec/41_g3_decode.md R200); nothing else changes. -/
def State.afterCode (s : State) (m : Memory) (len : Nat) (e : Engine) : State :=
  { s with
    mem := m
    eng := { e with q := .ofNat 35 (s.eng.q.toNat + len) }
    pos := { s.pos with inPos := .ofNat 32 ((s.eng.q.toNat + len + 7) / 8), curX := e.x, curY := e.y } }

/-- An encoder runs (spec/43_rle_encode.md R280). -/
def State.encoding (s : State) : Prop := s.running .encRle8 .d8 = true ∨ s.running .encRle4 .d4 = true

/-- The state after an emitted unit of len bytes for `pixels` pixels in `items` items of the row (spec/43_rle_encode.md R282,
R283, R285); nothing else changes. -/
def State.afterEmit (s : State) (m : Memory) (len pixels items : Nat) : State :=
  { s with
    mem := m
    eng := { s.eng with
      o := .ofNat 32 (s.eng.o.toNat + len), cnt := .ofNat 32 (s.eng.cnt.toNat + pixels),
      i := .ofNat 32 (s.eng.i.toNat + items) }
    pos := { s.pos with
      outPos := .ofNat 32 (s.eng.o.toNat + len), curX := .ofNat 32 (s.eng.cnt.toNat + pixels) } }

/-- Memory with the bytes bs at OUT offset k, all else as in s. -/
def State.holdsOut (s t : State) (k : Nat) (bs : List Byte) : Prop :=
  ∀ a, t.memByte a =
    if s.cfg.outBase.toNat + k ≤ a ∧ a < s.cfg.outBase.toNat + k + bs.length then
      bs.getD (a - (s.cfg.outBase.toNat + k)) 0
    else s.memByte a

end Sys2Proof.Machine
end

