-- ==== Sys2Proof/Certificates/Slice0/Obligations.lean ====
section
/-!
DEFINITION. The statements about the scanline codec block. Each follows rules of spec/; its docstring names them, and the
log entry where a clause rests on a choice of the model.
-/

open Sys2Proof Sys2Proof.Machine

/-! ### Encodings -/

/-- Decoding the words of a well-formed instruction in its context gives the instruction, for all 244 of them, every operand
and every G3_TABLE free of prefixes (spec/30_encoding.md R111 to R126, spec/42_g3_code_tables.md R251 to R256,
spec/43_rle_encode.md R286 to R289; the table as a parameter is log 10). -/
def Obligations.DecodeOfEncode : Prop :=
  ∀ (tbl : G3Table) (i : Instr), tbl.wf = true → i.wellFormed = true → decode tbl i.context (encode tbl i) = .ok i

/-- An RLE unit is read the same whatever bytes follow it, and reading it leaves just those bytes (R115 to R121). -/
def Obligations.UnitInStream : Prop :=
  ∀ (tbl : G3Table) (v : Rle) (i : Instr) (rest : List Byte), i.wellFormed = true → i.context = .rle v →
    decodeUnit v ((encode tbl i).toBytes ++ rest) = .ok (i, rest)

/-- What any decoder reads is well-formed, whatever the G3_TABLE (R115 to R120, R286 to R288). -/
def Obligations.DecodedWellFormed : Prop :=
  ∀ (tbl : G3Table) (ctx : Context) (w : Words) (i : Instr), decode tbl ctx w = .ok i → i.wellFormed = true

/-- The length of a unit follows from its two head bytes by the table of R121 and is even; the unit is read when the
stream is that long, and is TRUNCATED when it is shorter. -/
def Obligations.UnitLengthFromHead : Prop :=
  ∀ (v : Rle) (c d : Byte) (t : List Byte),
    let dataLen := match v with
      | .rle8 => d.toNat
      | .rle4 => (d.toNat + 1) / 2
      | .rle24 => 3 * d.toNat
    let len :=
      if c ≠ 0 then (match v with | .rle24 => 4 | .rle8 => 2 | .rle4 => 2)
      else if d.toNat = 0 ∨ d.toNat = 1 then 2
      else if d.toNat = 2 then 4
      else 2 + dataLen + dataLen % 2
    len % 2 = 0 ∧
      (len ≤ t.length + 2 → ∃ i, decodeUnit v (c :: d :: t) = .ok (i, t.drop (len - 2))) ∧
      (t.length + 2 < len → decodeUnit v (c :: d :: t) = .error .truncated)

/-- The command word of R111: the fields at their places, OP and BPP selecting the instruction (R112, R113, R126); the
reserved bits are ignored, so that two words which agree on START, OP, BPP, PALFMT, OUTFMT, A32 and IRQ_EN are the same
command; a word with START = 0 is none (R43, R44). -/
def Obligations.CommandWordFields : Prop :=
  (∀ (op : BitVec 4) (bpp : BitVec 3) (palfmt outfmt a32 irq : Bool),
    decodeCommand (BitVec.ofNat 32 (irq.toNat * 2 ^ 16 + a32.toNat * 2 ^ 13 + outfmt.toNat * 2 ^ 12 +
        palfmt.toNat * 2 ^ 11 + bpp.toNat * 2 ^ 8 + op.toNat * 2 ^ 4 + 1)) =
      .ok (commandOf op bpp { palfmt := palfmt, outfmt := outfmt, a32 := a32, irqEn := irq })) ∧
  (∀ w w' : Word, w &&& 0x00013FF1 = w' &&& 0x00013FF1 → decodeCommand w = decodeCommand w') ∧
  ∀ w : Word, w.getLsbD 0 = false → decodeCommand w = .error .notACommand

/-- The properties of the default G3_TABLE that R250 lists: the runs of each table, the code lengths, no code a prefix of
another code or of EOL, at most 7 leading zeros, the Kraft sum 1 − 15/4096 with EOL, and the strings that make up the rest. -/
def Obligations.CodeTableProperties : Prop :=
  (whiteTerminating.map CodeRow.run = List.range 64 ∧ blackTerminating.map CodeRow.run = List.range 64) ∧
  (whiteMakeUp.map CodeRow.run = (List.range 27).map (fun k => 64 * (k + 1)) ∧
    blackMakeUp.map CodeRow.run = (List.range 27).map fun k => 64 * (k + 1)) ∧
  sharedMakeUp.map CodeRow.run = ((List.range 13).map fun k => 1792 + 64 * k) ∧
  ((t4Table.rows .white).all (fun r => decide (4 ≤ r.len ∧ r.len ≤ 12)) = true ∧
    (t4Table.rows .black).all (fun r => decide (2 ≤ r.len ∧ r.len ≤ 13)) = true) ∧
  ∀ c : Color,
    ((List.replicate 11 false ++ [true]) :: (t4Table.rows c).map (fun r => bitsMsb r.len r.val)).Pairwise
      (fun a b => ¬ a <+: b ∧ ¬ b <+: a) ∧
    ((t4Table.rows c).all fun r => decide (((bitsMsb r.len r.val).takeWhile fun b => !b).length ≤ 7)) = true ∧
    ((t4Table.rows c).map fun r => 2 ^ (13 - r.len)).sum + 2 ^ (13 - 12) = 2 ^ 13 - 2 * 15 ∧
    ∀ rest : List Bool,
      decodeCode t4Table c (List.replicate 8 false ++ true :: rest) = .error .badCode ∧
      decodeCode t4Table c (List.replicate 9 false ++ true :: rest) = .error .badCode ∧
      decodeCode t4Table c (List.replicate 10 false ++ true :: rest) = .error .badCode ∧
      ∀ i t, decodeCode t4Table c (List.replicate 12 false ++ rest) = .ok (i, t) → ∃ fill, i = .eol fill

/-- ReadCode finds exactly the code at the head of the stream (R202, spec/30_encoding.md R123, R124): it reads code i when
i is of the colour's set and its bits are next, is TRUNCATED when the bits left are a proper prefix of a code, and is
G3_BAD_CODE when neither holds of any code; so with every G3_TABLE free of prefixes (log 10). -/
def Obligations.ReadCodeExact : Prop :=
  ∀ (tbl : G3Table) (c : Color) (bits : List Bool), tbl.wf = true →
    let inSet := fun i : Instr => (∃ r ∈ tbl.rows c, r.instr = i) ∨ ∃ fill, i = .eol fill
    (∀ i rest, decodeCode tbl c bits = .ok (i, rest) ↔ inSet i ∧ bits = encodeCode tbl i ++ rest) ∧
    (decodeCode tbl c bits = .error .truncated ↔ ∃ i ext, inSet i ∧ ext ≠ [] ∧ encodeCode tbl i = bits ++ ext) ∧
    (decodeCode tbl c bits = .error .badCode ↔
      ∀ i, inSet i → ¬ bits <+: encodeCode tbl i ∧ ¬ encodeCode tbl i <+: bits)

/-- A few encodings written out bit by bit from the spec: `START DEC_RLE8, bpp=8` (R111), RLE8 RUN and DELTA (R116, R119),
RLE4 RUN (R117), RLE24 RUN (R118), WT 3 and BT 3 (R251, R253), WM 64 (R252), XM 1792 (R255), EOL (R256), a 4-bpp pixel
byte (R125). -/
def Obligations.WordsWrittenOut : Prop :=
  decode t4Table .command (.command 0b00000000000000000000001000010001) =
    .ok (.decRle8 .d8 { palfmt := false, outfmt := false, a32 := false, irqEn := false }) ∧
  decode t4Table (.rle .rle8) (.bytes [0b00000011, 0b00000101]) = .ok (.rle8Run 3 5) ∧
  decode t4Table (.rle .rle8) (.bytes [0b00000000, 0b00000010, 0b00000001, 0b11111111]) = .ok (.rle8Delta 1 255) ∧
  decode t4Table (.rle .rle4) (.bytes [0b00000101, 0b00010010]) = .ok (.rle4Run 5 1 2) ∧
  decode t4Table (.rle .rle24) (.bytes [0b00000010, 0b00010000, 0b00100000, 0b00110000]) =
    .ok (.rle24Run 2 0x10 0x20 0x30) ∧
  decode t4Table (.g3 .white) (.code [true, false, false, false]) = .ok .wt3 ∧
  decode t4Table (.g3 .black) (.code [true, false]) = .ok .bt3 ∧
  decode t4Table (.g3 .white) (.code [true, true, false, true, true]) = .ok .wm64 ∧
  decode t4Table (.g3 .black)
    (.code [false, false, false, false, false, false, false, true, false, false, false]) = .ok .xm1792 ∧
  decode t4Table (.g3 .white) (.code (List.replicate 11 false ++ [true])) = .ok (.eol 0) ∧
  decode t4Table (.pix .d4) (.bytes [0b00010010]) = .ok (.pix4 1 2)

/-! ### A step runs what the decoder reads -/

/-- When it is the engine's turn, a step runs the instruction that the decoder reads: the latched command word, the RLE
unit at p, the Group-3 code at q, the pixel at (x, y), or the encoder's next unit (spec/20_memory.md R90, R95; what the
step adds is the state t, the turn taken and fresh draws, log 7). -/
def Obligations.StepRunsDecoded : Prop :=
  ∀ s t : State, s.turn t →
    (∀ i, t.eng.phase = .start → decode t.g3 .command (.command (t.ctrlWord ||| 1)) = .ok i → step s = exec i t) ∧
    (∀ v i rest, t.running (Rle.operation v) (Rle.depth v) = true → t.eng.p.toNat < t.cfg.inLen.toNat →
      decodeUnit v (t.inBytes t.eng.p.toNat (t.cfg.inLen.toNat - t.eng.p.toNat)) = .ok (i, rest) →
      step s = exec i t) ∧
    (∀ i rest, t.running .decHuff .d1 = true →
      decodeCode t.g3 t.eng.color (t.inBits t.eng.q.toNat (8 * t.cfg.inLen.toNat - t.eng.q.toNat)) = .ok (i, rest) →
      step s = exec i t) ∧
    (∀ d i rest, t.running .unpack d = true →
      decodePixel d (t.inBytes (t.eng.y.toNat * stride d t.cfg.width.toNat + t.eng.x.toNat * d.bits / 8)
        ((d.bits + 7) / 8)) = .ok (i, rest) →
      step s = exec i t) ∧
    (t.encoding → step s = exec t.nextUnit t)

/-- Where the stream gives no instruction, a step ends the operation: an RLE unit cut short is TRUNCATED (R151), a
Group-3 stream that runs out is TRUNCATED (R212), and bits that begin no code are G3_BAD_CODE (R202). -/
def Obligations.StepWithoutInstruction : Prop :=
  ∀ s : State, s.calm →
    (∀ v, s.running (Rle.operation v) (Rle.depth v) = true → s.eng.p.toNat < s.cfg.inLen.toNat →
      decodeUnit v (s.inBytes s.eng.p.toNat (s.cfg.inLen.toNat - s.eng.p.toNat)) = .error .truncated →
      step s = .next (s.ended .truncated)) ∧
    (∀ e, s.running .decHuff .d1 = true →
      decodeCode s.g3 s.eng.color (s.inBits s.eng.q.toNat (8 * s.cfg.inLen.toNat - s.eng.q.toNat)) = .error e →
      (e = .truncated ∧ step s = .next (s.ended .truncated)) ∨ (e = .badCode ∧ step s = .next (s.ended .g3BadCode)))

/-- At the end of the input, at a unit boundary, an RLE decode ends with success and EOBI; ERRCODE stays as it was, which
the invariant says is 0 (R156, R402). That OUT stays lent until the host observes the end is the model's record of R460
(log 30), here as at every end of an operation. -/
def Obligations.EndOfInputAtBoundary : Prop :=
  ∀ (v : Rle) (s : State), s.calm → s.running (Rle.operation v) (Rle.depth v) = true →
    s.eng.p.toNat = s.cfg.inLen.toNat →
    step s = .next (State.done { s with status := { s.status with eobi := true } }) ∧
    (s.inv = true → s.status.errcode = .none)

/-- Nothing happens while the engine is idle and nothing is pending, nor while reset holds the engine (R426, R450, R452;
log 24). -/
def Obligations.IdleStays : Prop :=
  ∀ s : State, s.plat.inputs = [] → (s.eng.phase = .idle ∨ s.plat.inReset = true) → step s = .next s

/-! ### Command words -/

/-- The START checks as a function of the configuration are checks 3 to 9 of R403: BAD_CONFIG when one of 3 to 8 fails,
else TRUNCATED when 9 fails, else none. -/
def Obligations.StartChecks : Prop :=
  ∀ (op : Operation) (d : Depth) (f : CmdFlags) (g : Cfg),
    (¬ SetupLegal op d f g → configError op d f g = some .badConfig) ∧
    (SetupLegal op d f g → ¬ InputCovers op d g → configError op d f g = some .truncated) ∧
    (SetupLegal op d f g → InputCovers op d g → configError op d f g = none)

/-- Every legal command word (UNPACK at its five depths, the four decoders, the two encoders), in the operation's first
step: with every check passed, the hidden state that the operation uses is initialised (R114, R150, R200, R280, R330,
spec/10_state.md R61), and a decoder with output bytes to fill goes to the zero-fill, any other operation to its body. Nothing
else changes. The model's choices: an empty fill has no step (log 4), and an encoder's IN_POS, CUR_X and CUR_Y are those of row
0 from this step on (log 3). -/
def Obligations.CommandEnters : Prop :=
  ∀ (op : Operation) (d : Depth) (f : CmdFlags) (s : State), s.eng.phase = .start →
    SetupLegal op d f s.cfg → InputCovers op d s.cfg →
    let fill := min s.cfg.outLen.toNat (stride d s.cfg.width.toNat * s.cfg.height.toNat)
    let next : Phase := if 0 < fill then .fill 0 else .body
    exec (legalCommand op d f) s =
      match op with
      | .decRle8 | .decRle4 | .decRle24 => .next { s with eng := { s.eng with phase := next, p := 0, x := 0, y := 0 } }
      | .decHuff =>
        .next { s with eng := { s.eng with
          phase := next, q := 0, color := .white, x := 0, y := 0, started := false, sawCode := false, eolRun := 0,
          pend := 0 } }
      | .encRle8 | .encRle4 =>
        .next { s with
          eng := { s.eng with phase := .body, o := 0, r := 0, i := 0, cnt := 0 }
          pos := { s.pos with inPos := 0, curX := 0, curY := 0 } }
      | .unpack =>
        .next { s with eng := { s.eng with phase := .body, o := 0, j := 0, x := 0, y := s.cfg.height - 1 } }

/-- The command words whose first step fails. The twelve reserved ones end with UNSUPPORTED, whatever the configuration; a
legal one whose configuration fails a check ends with the check's code. Nothing else changes, and no memory (R126, R403); OUT
is lent until the host observes the end (log 30). -/
def Obligations.CommandFails : Prop :=
  ∀ (f : CmdFlags) (s : State), s.eng.phase = .start → s.plat.races = [] →
    (∀ i b, i = .reservedOp5 b f ∨ i = .reservedOp6 b f ∨ i = .reservedOp7 b f ∨ i = .reservedOp8 b f ∨
        i = .reservedOpB b f ∨ i = .reservedOpC b f ∨ i = .reservedOpD b f ∨ i = .reservedOpE b f ∨
        i = .reservedOpF b f →
      exec i s = .next (s.ended .unsupported)) ∧
    (∀ i op, i = .reservedBpp5 op f ∨ i = .reservedBpp6 op f ∨ i = .reservedBpp7 op f →
      exec i s = .next (s.ended .unsupported)) ∧
    ∀ op d,
      (¬ SetupLegal op d f s.cfg → exec (legalCommand op d f) s = .next (s.ended .badConfig)) ∧
      (SetupLegal op d f s.cfg → ¬ InputCovers op d s.cfg → exec (legalCommand op d f) s = .next (s.ended .truncated))

/-- A decoder's checks and zero-fill, from its start: the first step initialises the hidden state (spec/10_state.md R61), each
step after it writes the next byte, and after as many as min(OUT_LEN, S·H) bytes, maybe none, those bytes of OUT are 0, every
other byte is as before, and the body begins, its hidden state as the first step left it: the cursor at 0, and at DEC_HUFF the
colour white, no EOL and no code seen and nothing waiting (R114, R150, R200). The number of steps is the model's choice: one
byte a step, and none for an empty fill (log 4). -/
def Obligations.ZeroFillWritesOut : Prop :=
  ∀ (op : Operation) (d : Depth) (s : State), s.calm → s.eng.phase = .start →
    (op = .decRle8 ∨ op = .decRle4 ∨ op = .decRle24 ∨ op = .decHuff) →
    s.ctrl.op = op.code → s.ctrl.bpp = d.code → SetupLegal op d s.ctrl.flags s.cfg →
    let n := min s.cfg.outLen.toNat (stride d s.cfg.width.toNat * s.cfg.height.toNat)
    let filled := fun (k : Nat) (t : State) =>
      t.eng.x = 0 ∧ t.eng.y = 0 ∧
      (op = .decHuff → t.eng.q = 0 ∧ t.eng.color = .white ∧ t.eng.started = false ∧ t.eng.sawCode = false ∧
        t.eng.eolRun = 0 ∧ t.eng.pend = 0) ∧
      (op ≠ .decHuff → t.eng.p = 0) ∧
      t.ctrl = s.ctrl ∧ t.status = s.status ∧ t.cfg = s.cfg ∧ t.pos = s.pos ∧ t.plat = s.plat ∧
      s.holdsOut t 0 (List.replicate k 0)
    (∀ k < n, ∃ u : State, Host.Core.run Sys2Proof.core (k + 1) s = .next u ∧
      u.eng.phase = .fill (.ofNat 32 k) ∧ filled k u) ∧
    ∃ t : State, Host.Core.run Sys2Proof.core (n + 1) s = .next t ∧ t.eng.phase = .body ∧ filled n t

/-! ### RLE units -/

/-- RLE8 RUN: every outcome, and the pixels it writes (R161). -/
def Obligations.Rle8Run : Prop :=
  ∀ (c v : Byte) (s : State), c ≠ 0 → s.running .decRle8 .d8 = true → s.plat.races = [] →
    PixelUnit (.rle8Run c v) s .d8 2 c.toNat fun t =>
      ∀ a, t.memByte a =
        if s.outRow .d8 s.eng.y.toNat + s.eng.x.toNat ≤ a ∧
            a < s.outRow .d8 s.eng.y.toNat + s.eng.x.toNat + c.toNat then v
        else s.memByte a

/-- RLE8 ABS: every outcome, and the pixels it writes (R162). -/
def Obligations.Rle8Abs : Prop :=
  ∀ (n : Byte) (data : List Byte) (s : State), (Instr.rle8Abs n data).wellFormed = true →
    s.running .decRle8 .d8 = true → s.plat.races = [] →
    PixelUnit (.rle8Abs n data) s .d8 (2 + n.toNat + n.toNat % 2) n.toNat fun t =>
      ∀ a, t.memByte a =
        if s.outRow .d8 s.eng.y.toNat + s.eng.x.toNat ≤ a ∧
            a < s.outRow .d8 s.eng.y.toNat + s.eng.x.toNat + n.toNat then
          data.getD (a - (s.outRow .d8 s.eng.y.toNat + s.eng.x.toNat)) 0
        else s.memByte a

/-- RLE4 RUN: every outcome; the pixels alternate h, l from the unit's first one, and every other pixel and byte stays
(R163). -/
def Obligations.Rle4Run : Prop :=
  ∀ (c : Byte) (h l : Nibble) (s : State), c ≠ 0 → s.running .decRle4 .d4 = true → s.plat.races = [] →
    PixelUnit (.rle4Run c h l) s .d4 2 c.toNat fun t =>
      (∀ a < s.outRow .d4 s.eng.y.toNat, t.memByte a = s.memByte a) ∧
      ∀ x, t.nibbleAt (s.outRow .d4 s.eng.y.toNat) x =
        if s.eng.x.toNat ≤ x ∧ x < s.eng.x.toNat + c.toNat then (if (x - s.eng.x.toNat) % 2 = 0 then h else l)
        else s.nibbleAt (s.outRow .d4 s.eng.y.toNat) x

/-- RLE4 ABS: every outcome; pixel i is the high nibble of data byte i div 2 when i is even, else the low one, and every
other pixel and byte stays (R164). -/
def Obligations.Rle4Abs : Prop :=
  ∀ (n : Byte) (data : List Byte) (s : State), (Instr.rle4Abs n data).wellFormed = true →
    s.running .decRle4 .d4 = true → s.plat.races = [] →
    let dataLen := (n.toNat + 1) / 2
    PixelUnit (.rle4Abs n data) s .d4 (2 + dataLen + dataLen % 2) n.toNat fun t =>
      (∀ a < s.outRow .d4 s.eng.y.toNat, t.memByte a = s.memByte a) ∧
      ∀ x, t.nibbleAt (s.outRow .d4 s.eng.y.toNat) x =
        if s.eng.x.toNat ≤ x ∧ x < s.eng.x.toNat + n.toNat then
          let e := data.getD ((x - s.eng.x.toNat) / 2) 0
          if (x - s.eng.x.toNat) % 2 = 0 then e.extractLsb' 4 4 else e.extractLsb' 0 4
        else s.nibbleAt (s.outRow .d4 s.eng.y.toNat) x

/-- RLE24 RUN: every outcome; the three bytes of the pixel are copied in stream order (R165). -/
def Obligations.Rle24Run : Prop :=
  ∀ (c b0 b1 b2 : Byte) (s : State), c ≠ 0 → s.running .decRle24 .d24 = true → s.plat.races = [] →
    PixelUnit (.rle24Run c b0 b1 b2) s .d24 4 c.toNat fun t =>
      ∀ a, t.memByte a =
        if s.outRow .d24 s.eng.y.toNat + 3 * s.eng.x.toNat ≤ a ∧
            a < s.outRow .d24 s.eng.y.toNat + 3 * s.eng.x.toNat + 3 * c.toNat then
          [b0, b1, b2].getD ((a - (s.outRow .d24 s.eng.y.toNat + 3 * s.eng.x.toNat)) % 3) 0
        else s.memByte a

/-- RLE24 ABS: every outcome; the data bytes are copied in stream order (R166). -/
def Obligations.Rle24Abs : Prop :=
  ∀ (n : Byte) (data : List Byte) (s : State), (Instr.rle24Abs n data).wellFormed = true →
    s.running .decRle24 .d24 = true → s.plat.races = [] →
    PixelUnit (.rle24Abs n data) s .d24 (2 + 3 * n.toNat + n.toNat % 2) n.toNat fun t =>
      ∀ a, t.memByte a =
        if s.outRow .d24 s.eng.y.toNat + 3 * s.eng.x.toNat ≤ a ∧
            a < s.outRow .d24 s.eng.y.toNat + 3 * s.eng.x.toNat + 3 * n.toNat then
          data.getD (a - (s.outRow .d24 s.eng.y.toNat + 3 * s.eng.x.toNat)) 0
        else s.memByte a

/-- The escapes in the three variants; each is TRUNCATED when the unit is cut, and changes nothing else. EOL: x ← 0,
y ← sat32(y + 1), p ← p + 2 (R157). EOB: p ← p + 2 and IN_POS with it, then success with EOBI as it was (R155). DELTA: x and
y move on by the unsigned dx and dy, saturating, and p ← p + 4 (R158, R160). -/
def Obligations.RleEscapes : Prop :=
  ∀ (v : Rle) (dx dy : Byte) (s : State), s.running (Rle.operation v) (Rle.depth v) = true → s.plat.races = [] →
    let p := s.eng.p.toNat
    let sat := fun n : Nat => min n (2 ^ 32 - 1)
    (exec v.eol s =
      if s.cfg.inLen.toNat < p + 2 then .next (s.ended .truncated)
      else .next (s.afterUnit s.mem (p + 2) 0 (sat (s.eng.y.toNat + 1)))) ∧
    (exec v.eob s =
      if s.cfg.inLen.toNat < p + 2 then .next (s.ended .truncated)
      else .next (State.done { s with
        eng := { s.eng with p := s.eng.p + 2 }, pos := { s.pos with inPos := s.eng.p + 2 } })) ∧
    exec (v.delta dx dy) s =
      if s.cfg.inLen.toNat < p + 4 then .next (s.ended .truncated)
      else .next (s.afterUnit s.mem (p + 4) (sat (s.eng.x.toNat + dx.toNat)) (sat (s.eng.y.toNat + dy.toNat)))

/-- An RLE decode ends: from its body, with the hazard rule kept, at most ceil((L − p)/2) + 1 steps lead to the end of the
operation (R167). -/
def Obligations.RleDecodeEnds : Prop :=
  ∀ (v : Rle) (s : State), s.inv = true → s.calm → s.running (Rle.operation v) (Rle.depth v) = true →
    ∃ t : State, Host.Core.run Sys2Proof.core ((s.cfg.inLen.toNat - s.eng.p.toNat + 1) / 2 + 1) s = .next t ∧
      t.busy = false ∧ t.status.done = true

/-! ### Group-3 codes -/

/-- Every terminating code of the block's G3_TABLE (WT 0 to 63 at white, BT 0 to 63 at black), with the table's length: the
errors in their order, else the whole run of pend + n pixels is written in the colour's bit, passed, and the colour changes;
every other pixel and byte stays (R203, R206, R209, R211). -/
def Obligations.TerminatingCodes : Prop :=
  ∀ (c : Color) (row : CodeRow) (s : State),
    row ∈ s.g3.terminating c →
    s.eng.color = c → s.running .decHuff .d1 = true → s.plat.races = [] →
    s.eng.q.toNat + row.len ≤ 8 * s.cfg.inLen.toNat →
    let x := s.eng.x.toNat
    let y := s.eng.y.toNat
    let t := s.eng.pend.toNat + row.run
    let base := s.outRow .d1 y
    if s.eng.started = false then exec row.instr s = .next (s.ended .g3NoLeadingEol)
    else if s.cfg.width.toNat < x + t then exec row.instr s = .next (s.ended .widthOverflow)
    else if 0 < t ∧ (s.cfg.height.toNat ≤ y ∨
        s.cfg.outLen.toNat ≤ y * stride .d1 s.cfg.width.toNat + (x + t - 1) / 8) then
      exec row.instr s = .next (s.ended .bufferOverflow)
    else ∃ m,
      exec row.instr s = .next (s.afterCode m row.len { s.eng with
        x := .ofNat 32 (x + t), pend := 0, color := (match c with | .white => .black | .black => .white),
        sawCode := true, eolRun := 0 }) ∧
      (∀ a < base, ({ s with mem := m } : State).memByte a = s.memByte a) ∧
      ∀ x', ({ s with mem := m } : State).bitAt base x' =
        if x ≤ x' ∧ x' < x + t then (match c with | .white => true | .black => false) else s.bitAt base x'

/-- Every make-up code of the block's G3_TABLE (WM and XM at white, BM and XM at black), with the table's length: the errors
in their order, else the run is added to the total that waits; memory and the colour stay (R203, R207, R208). -/
def Obligations.MakeUpCodes : Prop :=
  ∀ (c : Color) (row : CodeRow) (s : State),
    row ∈ s.g3.makeUp c →
    s.eng.color = c → s.running .decHuff .d1 = true → s.plat.races = [] →
    s.eng.q.toNat + row.len ≤ 8 * s.cfg.inLen.toNat →
    exec row.instr s =
      if s.eng.started = false then .next (s.ended .g3NoLeadingEol)
      else if s.cfg.width.toNat < s.eng.x.toNat + s.eng.pend.toNat + row.run then .next (s.ended .widthOverflow)
      else .next (s.afterCode s.mem row.len { s.eng with
        pend := .ofNat 32 (s.eng.pend.toNat + row.run), sawCode := true, eolRun := 0 })

/-- EOL with any number of fill bits: a waiting make-up total is G3_MAKEUP_AT_EOL; the first EOL starts row 0; an EOL after
codes ends the line; else EOLs are counted, and the sixth in a row ends the operation with success (R204, R205). -/
def Obligations.EolCode : Prop :=
  ∀ (fill : Nat) (s : State), s.running .decHuff .d1 = true → s.plat.races = [] →
    s.eng.q.toNat + (12 + fill) ≤ 8 * s.cfg.inLen.toNat → s.eng.eolRun.toNat < 6 →
    exec (.eol fill) s =
      if s.eng.pend ≠ 0 then .next (s.ended .g3MakeupAtEol)
      else if s.eng.started = false then
        .next (s.afterCode s.mem (12 + fill) { s.eng with started := true, eolRun := 1 })
      else if s.eng.sawCode = true then
        .next (s.afterCode s.mem (12 + fill) { s.eng with
          y := .ofNat 32 (min (s.eng.y.toNat + 1) (2 ^ 32 - 1)), x := 0, color := .white, sawCode := false,
          eolRun := 1 })
      else if s.eng.eolRun.toNat < 5 then
        .next (s.afterCode s.mem (12 + fill) { s.eng with eolRun := s.eng.eolRun + 1 })
      else .next (State.done { s with
        eng := { s.eng with eolRun := 6, q := .ofNat 35 (s.eng.q.toNat + (12 + fill)) }
        pos := { s.pos with inPos := .ofNat 32 ((s.eng.q.toNat + (12 + fill) + 7) / 8) } })

/-- A Group-3 decode ends: from its body, with the hazard rule kept, one step more than a code for every two bits left leads
to the end of the operation (R213). No code of the table has fewer than 2 bits, as R213 counts; the default table has none
(log 10). -/
def Obligations.Group3DecodeEnds : Prop :=
  ∀ s : State, s.inv = true → s.calm → s.running .decHuff .d1 = true → (∀ c, ∀ r ∈ s.g3.rows c, 2 ≤ r.len) →
    ∃ t : State, Host.Core.run Sys2Proof.core ((8 * s.cfg.inLen.toNat - s.eng.q.toNat) / 2 + 1) s = .next t ∧
      t.busy = false ∧ t.status.done = true

/-! ### Encoders -/

/-- ENC.RUN: two bytes, or BUFFER_OVERFLOW with nothing written; the cursor covers c pixels, which are c items at RLE8 and
ceil(c/2) bytes at RLE4 (R282, R286). -/
def Obligations.EmitRun : Prop :=
  ∀ (c v : Byte) (s : State), s.encoding → s.plat.races = [] →
    if s.cfg.outLen.toNat < s.eng.o.toNat + 2 then exec (.encRun c v) s = .next (s.ended .bufferOverflow)
    else ∃ m,
      exec (.encRun c v) s =
        .next (s.afterEmit m 2 c.toNat (if s.ctrl.op = Operation.encRle4.code then (c.toNat + 1) / 2 else c.toNat)) ∧
      s.holdsOut { s with mem := m } s.eng.o.toNat [c, v]

/-- ENC.ABS: the bytes 00 n, the data and a 00 pad when the data is odd, or BUFFER_OVERFLOW with nothing written; the cursor
covers n pixels in one item for each data byte (R282, R287). -/
def Obligations.EmitAbs : Prop :=
  ∀ (n : Byte) (data : List Byte) (s : State), s.encoding → s.plat.races = [] →
    let len := 2 + data.length + data.length % 2
    if s.cfg.outLen.toNat < s.eng.o.toNat + len then exec (.encAbs n data) s = .next (s.ended .bufferOverflow)
    else ∃ m,
      exec (.encAbs n data) s = .next (s.afterEmit m len n.toNat data.length) ∧
      s.holdsOut { s with mem := m } s.eng.o.toNat ([0, n] ++ data ++ List.replicate (data.length % 2) 0)

/-- ENC.SHORT: one encoded run of c pixels, or at RLE8 two of one pixel each; a unit that does not fit whole is
BUFFER_OVERFLOW with none of its bytes written and every register as before the step (R282, R288, spec/60_exceptions.md R401;
that the two runs are one step's unit is log 5). -/
def Obligations.EmitShort : Prop :=
  ∀ (c v w : Byte) (s : State), s.plat.races = [] →
    (s.encoding →
      if s.cfg.outLen.toNat < s.eng.o.toNat + 2 then exec (.encShort c v none) s = .next (s.ended .bufferOverflow)
      else ∃ m,
        exec (.encShort c v none) s =
          .next (s.afterEmit m 2 c.toNat (if s.ctrl.op = Operation.encRle4.code then (c.toNat + 1) / 2 else c.toNat)) ∧
        s.holdsOut { s with mem := m } s.eng.o.toNat [c, v]) ∧
    (s.running .encRle8 .d8 = true →
      if s.cfg.outLen.toNat < s.eng.o.toNat + 4 then exec (.encShort 1 v (some w)) s = .next (s.ended .bufferOverflow)
      else ∃ m,
        exec (.encShort 1 v (some w)) s = .next (s.afterEmit m 4 2 2) ∧
        s.holdsOut { s with mem := m } s.eng.o.toNat [1, v, 1, w])

/-- ENC.EOL and ENC.EOB: a row whose pixel count is not WIDTH is ENC_COUNT_MISMATCH; the pair 00 00 opens the next row, CUR_X
at 0 with cnt, the pair 00 01 ends the operation with success; without room it is BUFFER_OVERFLOW (R280, R282, R289,
spec/10_state.md R57, R61). That the next row's start, and at the end IN_POS and the success, belong to this step is the
model's choice (log 3). -/
def Obligations.EmitRowEnd : Prop :=
  ∀ s : State, s.encoding → s.plat.races = [] →
    let S := stride (if s.ctrl.op = Operation.encRle4.code then .d4 else .d8) s.cfg.width.toNat
    if s.eng.cnt ≠ s.cfg.width then
      exec .encEol s = .next (s.ended .encCountMismatch) ∧ exec .encEob s = .next (s.ended .encCountMismatch)
    else if s.cfg.outLen.toNat < s.eng.o.toNat + 2 then
      exec .encEol s = .next (s.ended .bufferOverflow) ∧ exec .encEob s = .next (s.ended .bufferOverflow)
    else
      (∃ m, exec .encEol s = .next { s with
          mem := m
          eng := { s.eng with
            o := .ofNat 32 (s.eng.o.toNat + 2), r := .ofNat 32 (s.eng.r.toNat + 1), i := 0, cnt := 0 }
          pos := { s.pos with
            outPos := .ofNat 32 (s.eng.o.toNat + 2), inPos := .ofNat 32 ((s.eng.r.toNat + 1) * S),
            curX := 0, curY := .ofNat 32 (s.eng.r.toNat + 1) } } ∧
        s.holdsOut { s with mem := m } s.eng.o.toNat [0, 0]) ∧
      ∃ m, exec .encEob s = .next (State.done { s with
          mem := m
          eng := { s.eng with o := .ofNat 32 (s.eng.o.toNat + 2) }
          pos := { s.pos with
            outPos := .ofNat 32 (s.eng.o.toNat + 2), inPos := .ofNat 32 (s.cfg.height.toNat * S) } }) ∧
        s.holdsOut { s with mem := m } s.eng.o.toNat [0, 1]

/-- The RLE8 encoder's next unit in a row, px(j) being input byte r·S + j: the run at i when it has 3 pixels or more, else
the literal stretch, as an absolute run from 3 pixels on and as one or two encoded runs below (R283, R286 to R288). -/
def Obligations.ChooseRle8 : Prop :=
  ∀ s : State, s.plat.races = [] → s.running .encRle8 .d8 = true → s.eng.i.toNat < s.cfg.width.toNat →
    let w := s.cfg.width.toNat
    let i := s.eng.i.toNat
    let px := fun j => s.memByte (s.cfg.inBase.toNat + (s.eng.r.toNat * stride .d8 w + j))
    (∀ k, 3 ≤ k → IsRunAt px 255 w i k → s.nextUnit = .encRun (.ofNat 8 k) (px i)) ∧
    (∀ n, 1 ≤ n → IsLiteralAt px 255 3 w i n →
      s.nextUnit =
        if 3 ≤ n then .encAbs (.ofNat 8 n) ((List.range n).map fun t => px (i + t))
        else if n = 2 ∧ px i ≠ px (i + 1) then .encShort 1 (px i) (some (px (i + 1)))
        else .encShort (.ofNat 8 n) (px i) none) ∧
    ((∃ k, 3 ≤ k ∧ IsRunAt px 255 w i k) ∨ ∃ n, 1 ≤ n ∧ IsLiteralAt px 255 3 w i n)

/-- The RLE4 encoder's next unit in a row of bytes, by(j) being input byte r·S + j, with the low nibble of the last byte of an
odd width as 0: the run at i when it has 2 bytes or more, else the literal stretch, as an absolute run from 3 pixels on and
as one encoded run below; the counts are pixels, the last byte of an odd width counting one (R284, R285). -/
def Obligations.ChooseRle4 : Prop :=
  ∀ s : State, s.plat.races = [] → s.running .encRle4 .d4 = true → s.eng.i.toNat < (s.cfg.width.toNat + 1) / 2 →
    let b := (s.cfg.width.toNat + 1) / 2
    let i := s.eng.i.toNat
    let px := fun j =>
      let e := s.memByte (s.cfg.inBase.toNat + (s.eng.r.toNat * stride .d4 s.cfg.width.toNat + j))
      if s.cfg.width.toNat % 2 = 1 ∧ j + 1 = b then e &&& 0xF0 else e
    let nibbles := fun k => if s.cfg.width.toNat % 2 = 1 ∧ i + k = b then 2 * k - 1 else 2 * k
    (∀ k, 2 ≤ k → IsRunAt px 127 b i k → s.nextUnit = .encRun (.ofNat 8 (nibbles k)) (px i)) ∧
    (∀ m, 1 ≤ m → IsLiteralAt px 127 2 b i m →
      s.nextUnit =
        if 3 ≤ nibbles m then .encAbs (.ofNat 8 (nibbles m)) ((List.range m).map fun t => px (i + t))
        else .encShort (.ofNat 8 (nibbles m)) (px i) none) ∧
    ((∃ k, 2 ≤ k ∧ IsRunAt px 127 b i k) ∨ ∃ m, 1 ≤ m ∧ IsLiteralAt px 127 2 b i m)

/-- What an encoder emits for a stretch of the row decodes to the row's pixels in the input: its bytes are those of RLE8
units, or of one RLE4 unit, whose pixels are the next n of the row (R292 for one emitted unit; R283 to R288). -/
def Obligations.EmittedUnitsDecode : Prop :=
  ∀ s : State, s.plat.races = [] →
    (s.running .encRle8 .d8 = true → s.eng.i.toNat < s.cfg.width.toNat →
      ∃ (units : List Instr) (n : Nat), 1 ≤ n ∧ s.eng.i.toNat + n ≤ s.cfg.width.toNat ∧
        (∀ u ∈ units, u.wellFormed = true ∧ u.context = .rle .rle8) ∧
        (encode s.g3 s.nextUnit).toBytes = (units.map fun u => (encode s.g3 u).toBytes).flatten ∧
        (units.map unitPixels8).flatten = (List.range n).map fun t =>
          s.memByte (s.cfg.inBase.toNat + (s.eng.r.toNat * stride .d8 s.cfg.width.toNat + (s.eng.i.toNat + t)))) ∧
    (s.running .encRle4 .d4 = true → s.eng.i.toNat < (s.cfg.width.toNat + 1) / 2 →
      ∃ (u : Instr) (n : Nat), 1 ≤ n ∧ 2 * s.eng.i.toNat + n ≤ s.cfg.width.toNat ∧
        u.wellFormed = true ∧ u.context = .rle .rle4 ∧
        (encode s.g3 s.nextUnit).toBytes = (encode s.g3 u).toBytes ∧
        unitPixels4 u = (List.range n).map fun t => s.rowNibble (2 * s.eng.i.toNat + t))

/-- ENC_COUNT_MISMATCH cannot occur (R290). -/
def Obligations.CountMismatchNever : Prop :=
  ∀ s t : State, s.inv = true → s.status.errcode ≠ .encCountMismatch → step s = .next t →
    t.status.errcode ≠ .encCountMismatch

/-- An encoder with room for H·(2W + 2) bytes never overflows: the bound on what it has written so far, 2W + 2 bytes for each
row done and 2 for each pixel of this one, holds when its body begins and is kept by every step, and no such step ends with
BUFFER_OVERFLOW (R293). -/
def Obligations.EncoderFits : Prop :=
  (∀ s t : State, s.eng.phase = .start → step s = .next t → t.encoding →
    t.eng.o = 0 ∧ t.eng.r = 0 ∧ t.eng.cnt = 0 ∧
      t.eng.o.toNat ≤ t.eng.r.toNat * (2 * t.cfg.width.toNat + 2) + 2 * t.eng.cnt.toNat) ∧
  ∀ s t : State, s.inv = true → s.calm → s.encoding →
    s.cfg.height.toNat * (2 * s.cfg.width.toNat + 2) ≤ s.cfg.outLen.toNat →
    s.eng.o.toNat ≤ s.eng.r.toNat * (2 * s.cfg.width.toNat + 2) + 2 * s.eng.cnt.toNat →
    step s = .next t →
    t.status.errcode ≠ .bufferOverflow ∧
      (t.busy = true → t.eng.o.toNat ≤ t.eng.r.toNat * (2 * t.cfg.width.toNat + 2) + 2 * t.eng.cnt.toNat)

/-- An encode ends: from its body, with the hazard rule kept, at most W + 1 steps for each row left lead to the end of the
operation (R293, spec/70_reset_and_hazards.md R471). That the success belongs to the last unit's step, with no step of its
own, is the model's choice (log 3). -/
def Obligations.EncodeEnds : Prop :=
  ∀ s : State, s.inv = true → s.calm → s.encoding →
    ∃ t : State, Host.Core.run Sys2Proof.core
        ((s.cfg.height.toNat - s.eng.r.toNat) * (s.cfg.width.toNat + 1)) s = .next t ∧
      t.busy = false ∧ t.status.done = true

/-! ### The unpacker -/

/-- UNPACK.1, UNPACK.4 and UNPACK.8: the pixel's value selects a colour-table entry B, G, R; the output pixel is R, G, B and
255, or R, G, B alone; a value past the table is PAL_INDEX_RANGE (R331 to R334, R336, R337, R341). -/
def Obligations.IndexedPixels : Prop :=
  ∀ (e v : Byte) (h l : Nibble) (s : State), s.plat.races = [] →
    let out := (s.eng.j.toNat * s.cfg.width.toNat + s.eng.x.toNat) * (if s.ctrl.flags.outfmt then 4 else 3)
    let outcome := fun (i : Instr) (d : Depth) (value : Nat) =>
      let entries := if s.cfg.palCount.toNat = 0 then 2 ^ d.bits else s.cfg.palCount.toNat
      let entry := s.cfg.palBase.toNat + value * (if s.ctrl.flags.palfmt then 4 else 3)
      s.running .unpack d = true →
        if entries ≤ value then exec i s = .next (s.ended .palIndexRange)
        else ∃ m, exec i s = .next (State.nextPixel { s with mem := m } d) ∧
          s.holdsOut { s with mem := m } out
            ([s.memByte (entry + 2), s.memByte (entry + 1), s.memByte entry] ++
              if s.ctrl.flags.outfmt then [255] else [])
    outcome (.pix1 e) .d1 ((e >>> (7 - s.eng.x.toNat % 8)).toNat % 2) ∧
    outcome (.pix4 h l) .d4 (if s.eng.x.toNat % 2 = 0 then h.toNat else l.toNat) ∧
    outcome (.pix8 v) .d8 v.toNat

/-- UNPACK.24 and UNPACK.32: the bytes B, G, R become R, G, B, and with OUTFMT = 1 an alpha of 255, or the fourth byte at 32
bpp with A32 = 1 (R333, R338, R339, R341). -/
def Obligations.DirectPixels : Prop :=
  ∀ (b g r x : Byte) (s : State),
    let out := (s.eng.j.toNat * s.cfg.width.toNat + s.eng.x.toNat) * (if s.ctrl.flags.outfmt then 4 else 3)
    (s.running .unpack .d24 = true →
      ∃ m, exec (.pix24 b g r) s = .next (State.nextPixel { s with mem := m } .d24) ∧
        s.holdsOut { s with mem := m } out ([r, g, b] ++ if s.ctrl.flags.outfmt then [255] else [])) ∧
    (s.running .unpack .d32 = true →
      ∃ m, exec (.pix32 b g r x) s = .next (State.nextPixel { s with mem := m } .d32) ∧
        s.holdsOut { s with mem := m } out
          ([r, g, b] ++ if s.ctrl.flags.outfmt then [if s.ctrl.flags.a32 then x else 255] else []))

/-- After a pixel, in any depth: OUT_POS, CUR_X and CUR_Y show it; the next pixel of the row, the first of the next row (the
file row above), or after the last one IN_POS = S·H and success. Nothing else changes (R330, R335). That the cursor moves, and
the operation ends, inside the pixel's step is the model's choice (log 3). -/
def Obligations.PixelPositions : Prop :=
  ∀ (d : Depth) (s : State), s.running .unpack d = true → s.plat.races = [] →
    let o := BitVec.ofNat 32 (s.eng.o.toNat + if s.ctrl.flags.outfmt then 4 else 3)
    let pos : Progress := { s.pos with outPos := o, curX := s.eng.x, curY := s.eng.j }
    s.nextPixel d =
      if s.eng.x.toNat + 1 < s.cfg.width.toNat then { s with pos := pos, eng := { s.eng with o := o, x := s.eng.x + 1 } }
      else if s.eng.j.toNat + 1 < s.cfg.height.toNat then
        { s with pos := pos, eng := { s.eng with o := o, x := 0, j := s.eng.j + 1, y := s.eng.y - 1 } }
      else
        State.done { s with
          pos := { pos with inPos := .ofNat 32 (stride d s.cfg.width.toNat * s.cfg.height.toNat) }
          eng := { s.eng with o := o } }

/-- UNPACK takes one step a pixel. From pixel x of image row j it is busy before each of the pixels left; at 24 and 32 bpp it
ends with success after the last; at 1, 4 and 8 bpp it does so, or it ends at an earlier pixel, or at the last, with
PAL_INDEX_RANGE (R342, R332). That the end belongs to the last pixel's step, with no step of its own, is the model's choice
(log 3). -/
def Obligations.UnpackEndsExactly : Prop :=
  ∀ (d : Depth) (s : State), s.inv = true → s.calm → s.running .unpack d = true →
    let left := s.cfg.width.toNat * s.cfg.height.toNat - (s.eng.j.toNat * s.cfg.width.toNat + s.eng.x.toNat)
    let succeeds := fun t : State => t.status.errcode = .none ∧ t.pos.outPos = s.cfg.outLen ∧
      t.pos.inPos.toNat = stride d s.cfg.width.toNat * s.cfg.height.toNat
    ∃ n, 1 ≤ n ∧ n ≤ left ∧
      (∀ k < n, ∃ t : State, Host.Core.run Sys2Proof.core k s = .next t ∧ t.busy = true) ∧
      ∃ t : State, Host.Core.run Sys2Proof.core n s = .next t ∧ t.busy = false ∧ t.status.done = true ∧
        ((n = left ∧ succeeds t) ∨ ((d = .d1 ∨ d = .d4 ∨ d = .d8) ∧ t.status.errcode = .palIndexRange))

/-! ### The register window and the host -/

/-- A CTRL write to an idle block takes the six fields and drops the rest; with bit 0 set it clears STATUS and the progress
registers and the operation starts; while BUSY it is ignored entirely, and CTRL reads back as its fields alone (R43, R44). -/
def Obligations.CtrlWrite : Prop :=
  ∀ (s : State) (v : Word) (rest : List Input), s.plat.inReset = false → s.plat.inputs = .writeReg 0x00 4 v :: rest →
    (s.busy = true → step s = .next (s.withInputs rest)) ∧
    (s.busy = false → ∃ t, step s = .next t ∧ t.ctrlWord = v &&& 0x00013FF0 ∧
      t.cfg = s.cfg ∧ t.mem = s.mem ∧ t.plat = { s.plat with inputs := rest } ∧
      (v.getLsbD 0 = false → t.status = s.status ∧ t.pos = s.pos ∧ t.eng = s.eng) ∧
      (v.getLsbD 0 = true →
        t.status = { done := false, eobi := false, errcode := .none } ∧
        t.pos = { inPos := 0, outPos := 0, curX := 0, curY := 0 } ∧
        t.busy = true ∧ t.eng = { s.eng with phase := .start }))

/-- STATUS reads as its fields (R45): BUSY, DONE, ERR = (ERRCODE ≠ 0), EOBI, ERRCODE in bits 15:8, the rest 0. -/
def Obligations.StatusRead : Prop :=
  ∀ s : State,
    s.statusWord.toNat =
      s.busy.toNat + 2 * s.status.done.toNat + 4 * (if s.status.errcode = .none then 0 else 1) + 8 * s.status.eobi.toNat +
        256 * (match s.status.errcode with
          | .none => 0x00 | .truncated => 0x01 | .widthOverflow => 0x02 | .bufferOverflow => 0x03 | .g3BadCode => 0x04
          | .g3NoLeadingEol => 0x05 | .g3MakeupAtEol => 0x06 | .encCountMismatch => 0x07 | .palIndexRange => 0x08
          | .unsupported => 0x09 | .badConfig => 0x0A)

/-- A host read of a register returns its current value and has no side effect on the block; a reserved offset returns 0;
with reset asserted every read returns 0 (R42, R59, R60, R86, R450). A value of STATUS with BUSY = 0 or DONE = 1 lets the host
know that no operation is left running, which the model records (R91, R460; log 30). -/
def Obligations.RegisterRead : Prop :=
  ∀ (s : State) (offset : Byte) (rest : List Input), offset.toNat % 4 = 0 → s.plat.inputs = .readReg offset 4 :: rest →
    step s = .next { s with plat := { s.plat with
      inputs := rest
      readData :=
        if s.plat.inReset then 0
        else if offset = 0x00 then s.ctrlWord
        else if offset = 0x04 then s.statusWord
        else if offset = 0x08 then s.cfg.width
        else if offset = 0x0C then s.cfg.height
        else if offset = 0x10 then s.cfg.inBase
        else if offset = 0x14 then s.cfg.inLen
        else if offset = 0x18 then s.cfg.outBase
        else if offset = 0x1C then s.cfg.outLen
        else if offset = 0x20 then s.cfg.palBase
        else if offset = 0x24 then s.cfg.palCount
        else if offset = 0x28 then s.pos.inPos
        else if offset = 0x2C then s.pos.outPos
        else if offset = 0x30 then s.pos.curX
        else if offset = 0x34 then s.pos.curY
        else 0
      unseen :=
        if offset = 0x04 ∧ (s.plat.inReset = true ∨ s.busy = false ∨ s.status.done = true) then []
        else s.plat.unseen } }

/-- A write of a register other than CTRL and STATUS to an idle block: a configuration register takes the value and no other
register changes; a read-only or reserved offset ignores it (R42, R47 to R54, R59). -/
def Obligations.RegisterWrite : Prop :=
  ∀ (s : State) (offset : Byte) (v : Word) (rest : List Input), offset.toNat % 4 = 0 → offset ≠ 0x00 → offset ≠ 0x04 →
    s.plat.inReset = false → s.busy = false → s.plat.inputs = .writeReg offset 4 v :: rest →
    ∃ g : Cfg, step s = .next { s with cfg := g, plat := { s.plat with inputs := rest } } ∧
      (∀ k : Byte, k ≠ offset → ({ s with cfg := g } : State).regValue k.toNat = s.regValue k.toNat) ∧
      ({ s with cfg := g } : State).regValue offset.toNat =
        if 0x08 ≤ offset.toNat ∧ offset.toNat ≤ 0x24 then v else s.regValue offset.toNat

/-- A write of STATUS clears DONE when bit 1 is set; every other bit is ignored, and nothing else changes; while BUSY it has no
effect. ERRCODE and EOBI of an idle block keep their values through every step but a START (and the end of a reset) (R46). -/
def Obligations.StatusWrite : Prop :=
  (∀ (s : State) (v : Word) (rest : List Input), s.plat.inReset = false → s.plat.inputs = .writeReg 0x04 4 v :: rest →
    step s = .next { s with
      status := { s.status with done := s.status.done && !v.getLsbD 1 }, plat := { s.plat with inputs := rest } } ∧
    (s.inv = true → s.busy = true → step s = .next (s.withInputs rest))) ∧
  ∀ s t : State, s.busy = false → step s = .next t →
    (∀ v rest, s.plat.inputs = .writeReg 0x00 4 v :: rest → v.getLsbD 0 = false) →
    (∀ rest, s.plat.inputs ≠ .reset false :: rest) →
    t.status.errcode = s.status.errcode ∧ t.status.eobi = s.status.eobi ∧ t.err = s.err

/-- While BUSY, a host write of a configuration register is ignored, and no step but the end of a reset changes the
configuration or CTRL; a read returns the current value (R60, R44). -/
def Obligations.ConfigConstantWhileBusy : Prop :=
  ∀ s : State, s.busy = true →
    (∀ (offset : Byte) (v : Word) (rest : List Input), offset ≠ 0x04 → offset.toNat % 4 = 0 →
      s.plat.inputs = .writeReg offset 4 v :: rest → step s = .next (s.withInputs rest)) ∧
    (∀ t, (∀ rest, s.plat.inputs ≠ .reset false :: rest) → step s = .next t → t.cfg = s.cfg ∧ t.ctrl = s.ctrl) ∧
    (∀ (offset : Byte) (rest : List Input), offset.toNat % 4 = 0 → s.plat.inReset = false →
      s.plat.inputs = .readReg offset 4 :: rest →
      ∃ t, step s = .next t ∧ t.plat.readData = s.regValue offset.toNat ∧ t.cfg = s.cfg ∧ t.eng = s.eng ∧ t.pos = s.pos)

/-- A register access that is not an aligned 32-bit access is refused, and every aligned one is not (R85; log 12). -/
def Obligations.RegisterAccessShape : Prop :=
  ∀ (s : State) (offset : Byte) (size : Nat) (v : Word) (rest : List Input),
    (s.plat.inputs = .readReg offset size :: rest ∨ s.plat.inputs = .writeReg offset size v :: rest) →
    (¬ (size = 4 ∧ offset.toNat % 4 = 0) → step s = .refused .registerAccessShape) ∧
    (size = 4 ∧ offset.toNat % 4 = 0 → ∃ t, step s = .next t)

/-- The completion interrupt (R65, R410): IRQ is IRQ_EN and DONE; the end of an operation raises it exactly when it is enabled,
a write of 1 to STATUS.DONE and a START lower it, and while DONE = 1 a CTRL write without START sets it to the IRQ_EN
written. -/
def Obligations.CompletionInterrupt : Prop :=
  ∀ s : State,
    (s.irq = true ↔ s.ctrl.flags.irqEn = true ∧ s.status.done = true) ∧
    (∀ c, (s.raise c).irq = s.ctrl.flags.irqEn) ∧ s.finish.irq = s.ctrl.flags.irqEn ∧
    s.acknowledge.irq = false ∧
    (∀ v : Word, s.busy = false → v.getLsbD 0 = true → (s.writeCtrl v).irq = false) ∧
    (∀ v : Word, s.busy = false → v.getLsbD 0 = false → s.status.done = true → (s.writeCtrl v).irq = v.getLsbD 16)

/-- Reset, asserted and then deasserted, with no breach of the hazard rule: while it is asserted a register write is ignored
and the engine does not move; afterwards every register reads 0, the engine is idle and IRQ is 0; memory is unchanged (R450,
R67). The hidden state is a free value (log 8). -/
def Obligations.ResetEvent : Prop :=
  ∀ (s : State) (offset : Byte) (v : Word) (rest : List Input), s.plat.races = [] → offset.toNat % 4 = 0 →
    s.plat.inputs = .reset true :: .writeReg offset 4 v :: .engine :: .reset false :: rest →
    ∃ r t : State, Host.Core.run Sys2Proof.core 1 s = .next r ∧ r.plat.inReset = true ∧
      Host.Core.run Sys2Proof.core 3 s =
        .next { r with plat := { r.plat with inputs := .reset false :: rest } } ∧
      Host.Core.run Sys2Proof.core 4 s = .next t ∧ t.plat.inReset = false ∧
      (∀ k : Byte, t.regValue k.toNat = 0) ∧ t.busy = false ∧ t.irq = false ∧ t.mem = s.mem ∧ t.plat.inputs = rest

/-- The state after reset: every register reads 0, the engine is idle, IRQ is 0 (R67, R451), and the invariant holds. -/
def Obligations.AfterReset : Prop :=
  (∀ k : Byte, State.reset.regValue k.toNat = 0) ∧ State.reset.busy = false ∧ State.reset.irq = false ∧
    State.reset.status = { done := false, eobi := false, errcode := .none } ∧ State.reset.plat.inReset = false ∧
    State.reset.inv = true

/-- A START right after reset, no register written, runs UNPACK at 1 bpp with WIDTH = 0 and ends at once with BAD_CONFIG,
touching no memory (R453). -/
def Obligations.StartAfterReset : Prop :=
  ∃ t u : State,
    Host.Core.run Sys2Proof.core 1 { State.reset with plat := { State.reset.plat with inputs := [.writeReg 0x00 4 1] } } =
      .next t ∧
    t.busy = true ∧ t.ctrl.op = Operation.unpack.code ∧ t.ctrl.bpp = Depth.d1.code ∧ t.cfg.width = 0 ∧
    step t = .next u ∧ u.busy = false ∧ u.status = { done := true, eobi := false, errcode := .badConfig } ∧
    u.mem = State.reset.mem

/-- A host write of memory outside a running operation's regions, and outside the OUT of one whose end the host has not
observed, changes that byte and nothing else, and a host read there returns the byte (R80, R91, R460). -/
def Obligations.HostMemoryAccess : Prop :=
  ∀ (s : State) (a : Word) (v : Byte) (rest : List Input),
    (s.busy = false ∨ (s.inIn a.toNat = false ∧ s.inOut a.toNat = false ∧ s.inPal a.toNat = false)) →
    (∀ r ∈ s.plat.unseen, ¬ (r.base.toNat ≤ a.toNat ∧ a.toNat < r.base.toNat + r.len.toNat)) →
    (s.plat.inputs = .writeMem a v :: rest →
      ∃ m, step s = .next { s with mem := m, plat := { s.plat with inputs := rest } } ∧
      ∀ b, ({ s with mem := m } : State).memByte b = if b = a.toNat then v else s.memByte b) ∧
    (s.plat.inputs = .readMem a :: rest →
      step s = .next ((s.withInputs rest).withReadData ((s.memByte a.toNat).setWidth 32)))

/-- A host access that breaches the hazard rule gives draws (R92; their form is log 7). A host write into IN, PAL or OUT while
BUSY marks the byte as raced; it stays so through every step until the operation ends or reset is asserted. In every state
in which a byte is raced, every engine read of it in the next step is a draw, its number the step's and not used before; and
the step that ends the operation, or asserts reset, leaves another draw at each raced byte of OUT. A host read of OUT while
BUSY is a draw with a number not used before. From the end on until the host observes it, by STATUS or by IRQ, OUT is lent
(R460; log 30): a host read of it is such a draw, and a host write leaves one. -/
def Obligations.BreachGivesDraws : Prop :=
  (∀ (s t : State) (a : Word) (v : Byte) (rest : List Input), s.busy = true → s.plat.inReset = false →
    s.plat.inputs = .writeMem a v :: rest →
    (s.inIn a.toNat = true ∨ s.inPal a.toNat = true ∨ s.inOut a.toNat = true) → step s = .next t →
    t.busy = true ∧ t.plat.inReset = false ∧ t.raced a.toNat = true) ∧
  (∀ (u : State) (a : Nat), u.busy = true → u.plat.inReset = false → u.raced a = true →
    (∀ place, u.drawn.engRead place a = Config.raceByte u.drawn.plat.draws place a) ∧ u.plat.draws < u.drawn.plat.draws ∧
    (∀ t, step u = .next t → t.busy = true → t.plat.inReset = false → t.raced a = true) ∧
    (u.inOut a = true →
      (∀ t, step u = .next t → t.busy = false ∨ t.plat.inReset = true →
        ∃ n, u.plat.draws < n ∧ n ≤ t.plat.draws ∧ t.memByte a = Config.raceByte n 0 a) ∧
      (∀ c, ∃ n, u.plat.draws < n ∧ n ≤ (u.raise c).plat.draws ∧ (u.raise c).memByte a = Config.raceByte n 0 a) ∧
      ∃ n, u.plat.draws < n ∧ n ≤ u.finish.plat.draws ∧ u.finish.memByte a = Config.raceByte n 0 a)) ∧
  (∀ (s : State) (a : Word) (rest : List Input), s.plat.inputs = .readMem a :: rest →
    (s.busy = true ∧ s.plat.inReset = false ∧ s.inOut a.toNat = true) ∨ s.unseenOut a.toNat = true →
    ∃ t, step s = .next t ∧ t.plat.draws = s.plat.draws + 1 ∧
      t.plat.readData = (Config.raceByte (s.plat.draws + 1) 0 a.toNat).setWidth 32) ∧
  (∀ (s : State) (a : Word) (v : Byte) (rest : List Input), s.plat.inputs = .writeMem a v :: rest →
    s.unseenOut a.toNat = true →
    ∃ t, step s = .next t ∧ t.plat.draws = s.plat.draws + 1 ∧
      t.memByte a.toNat = Config.raceByte (s.plat.draws + 1) 0 a.toNat) ∧
  (∀ (s : State) (c : ErrCode) (a : Nat),
    (s.raise c).unseenOut a = (s.inOut a || s.unseenOut a) ∧ s.finish.unseenOut a = (s.inOut a || s.unseenOut a)) ∧
  ∀ (s : State) (rest : List Input), s.plat.inputs = .readIrq :: rest →
    step s = .next { s with plat := { s.plat with
      inputs := rest, readData := if s.irq then 1 else 0, unseen := if s.irq then [] else s.plat.unseen } }

/-! ### The whole machine -/

/-- Every step keeps the invariant: memory's canonical form; STATUS as START left it while BUSY; in each phase what the spec
says of it, among it the registers that mirror the cursor, the cursor inside the input, and the pixel counters (R44, R55 to
R58, R61, R62, R114, R205, R290, R335). -/
def Obligations.InvariantKept : Prop :=
  ∀ s t : State, s.inv = true → step s = .next t → t.inv = true

/-- Every step keeps memory's canonical form, in any state (R80; the form is the model's own). -/
def Obligations.MemoryFormKept : Prop :=
  ∀ s t : State, s.memOk = true → step s = .next t → t.memOk = true

/-- From a state that meets the invariant a step never faults, and it is refused only at a register access of a wrong shape
(spec/93 "No item of this spec is stuck"; R85; log 13). -/
def Obligations.NeverStuck : Prop :=
  ∀ s : State, s.inv = true →
    (∃ t, step s = .next t) ∨
      (step s = .refused .registerAccessShape ∧
        ∃ offset size v rest, ¬ (size = 4 ∧ offset.toNat % 4 = 0) ∧
          (s.plat.inputs = .readReg offset size :: rest ∨ s.plat.inputs = .writeReg offset size v :: rest))

/-- No instruction writes a byte outside OUT or changes the configuration, in any state (R81, R167, R213, R60); no turn of
the engine does; and no step at all changes the parameter G3_TABLE (R6, log 10). -/
def Obligations.WritesOnlyOut : Prop :=
  (∀ (i : Instr) (s t : State), exec i s = .next t →
    t.cfg = s.cfg ∧ ∀ a, s.inOut a = false → t.memByte a = s.memByte a) ∧
  (∀ s u t : State, s.turn u → step s = .next t →
    t.cfg = s.cfg ∧ ∀ a, s.inOut a = false → t.memByte a = s.memByte a) ∧
  ∀ s t : State, step s = .next t → t.g3 = s.g3

/-- Only the events that R63 names change the flags: BUSY rises only at a START write and falls only with DONE or a reset; DONE
rises only with the fall of BUSY, and falls only at a STATUS write, a START or a reset; EOBI rises only at the end of an RLE
decode's input, and falls only at a START or a reset; ERRCODE changes only when an operation ends or starts or at a reset. -/
def Obligations.FlagsChangeOnlyBy : Prop :=
  ∀ s t : State, s.inv = true → step s = .next t →
    let start := ∃ v rest, s.plat.inputs = .writeReg 0x00 4 v :: rest ∧ v.getLsbD 0 = true
    let ack := ∃ v rest, s.plat.inputs = .writeReg 0x04 4 v :: rest ∧ v.getLsbD 1 = true
    let resetEnds := ∃ rest, s.plat.inputs = .reset false :: rest
    (s.busy = false → t.busy = true → start) ∧
    (s.busy = true → t.busy = false → t.status.done = true ∨ resetEnds) ∧
    (s.status.done = false → t.status.done = true → s.busy = true ∧ t.busy = false) ∧
    (s.status.done = true → t.status.done = false → start ∨ ack ∨ resetEnds) ∧
    (s.status.eobi = false → t.status.eobi = true →
      (∃ v, s.running (Rle.operation v) (Rle.depth v) = true) ∧ s.eng.p = s.cfg.inLen ∧ t.busy = false) ∧
    (s.status.eobi = true → t.status.eobi = false → start ∨ resetEnds) ∧
    (s.status.errcode ≠ t.status.errcode → (s.busy = true ∧ t.busy = false) ∨ start ∨ resetEnds)
end

