-- ==== Sys2Proof/Laws/Memory.lean ====
section
/-!
SUPPORT. The laws of memory: a write is read back at its own address and nowhere else, and every memory operation keeps
the canonical form.
-/

namespace Sys2Proof.Machine

/-! ### Reading after a write -/

theorem Memory.get?_write (m : Memory) (a b : Nat) (v : Byte) :
    (m.write a v).get? b = if b = a then some v else m.get? b := by
  induction m with
  | nil => rfl
  | cons c m ih =>
    obtain ⟨d, w⟩ := c
    unfold Memory.write
    split
    · rfl
    · split
      · subst_vars
        by_cases h : b = d <;> simp [Memory.get?, h]
      · simp only [Memory.get?, ih]
        by_cases hd : b = d
        · subst hd
          simp_all
          omega
        · simp [hd]

@[simp] theorem Memory.get?_write_self (m : Memory) (a : Nat) (v : Byte) : (m.write a v).get? a = some v := by
  simp [Memory.get?_write]

theorem Memory.get?_write_other {m : Memory} {a b : Nat} {v : Byte} (h : b ≠ a) :
    (m.write a v).get? b = m.get? b := by
  simp [Memory.get?_write, h]

/-! ### The canonical form -/

/-- The form of a memory after a first address: that address is below the next one and inside the address space. -/
theorem Memory.wf_cons (c : Host.Cell) (m : Memory) :
    Memory.wf (c :: m) = (Memory.wf m && decide (c.1 < Config.memSize) && m.all fun d => decide (c.1 < d.1)) := by
  induction m generalizing c with
  | nil => simp [Memory.wf]
  | cons d m ih =>
    rw [Bool.eq_iff_iff]
    simp only [Memory.wf, ih, List.all_cons, Bool.and_eq_true, decide_eq_true_eq, List.all_eq_true]
    constructor
    · rintro ⟨h, ⟨h1, h2⟩, h3⟩
      exact ⟨⟨⟨⟨h1, h2⟩, h3⟩, by omega⟩, h, fun e he => lt_trans h (h3 e he)⟩
    · rintro ⟨⟨⟨⟨h1, h2⟩, h3⟩, h4⟩, h, h5⟩
      exact ⟨h, ⟨h1, h2⟩, h3⟩

theorem Memory.mem_write {m : Memory} {a : Nat} {v : Byte} {c : Host.Cell} (h : c ∈ m.write a v) :
    c = (a, v) ∨ c ∈ m := by
  induction m with
  | nil => simpa [Memory.write] using h
  | cons d m ih =>
    unfold Memory.write at h
    split at h
    · simpa using h
    · split at h
      · simp only [List.mem_cons] at h ⊢
        tauto
      · simp only [List.mem_cons] at h ⊢
        rcases h with h | h
        · tauto
        · have := ih h
          tauto

/-- A write keeps the canonical form. -/
theorem Memory.wf_write {m : Memory} (hm : m.wf = true) {a : Nat} (ha : a < Config.memSize) (v : Byte) :
    (m.write a v).wf = true := by
  induction m with
  | nil => simpa [Memory.write, Memory.wf] using ha
  | cons d m ih =>
    obtain ⟨b, w⟩ := d
    have hc := hm
    rw [Memory.wf_cons] at hc
    simp only [Bool.and_eq_true, decide_eq_true_eq, List.all_eq_true] at hc
    obtain ⟨⟨h1, h2⟩, h3⟩ := hc
    unfold Memory.write
    split
    · rename_i hab
      rw [Memory.wf_cons]
      simp only [Bool.and_eq_true, decide_eq_true_eq, List.all_eq_true, hm, ha, true_and, List.mem_cons]
      rintro e (rfl | he)
      · exact hab
      · exact lt_trans hab (h3 e he)
    · split
      · subst_vars
        rw [Memory.wf_cons]
        simp only [Bool.and_eq_true, decide_eq_true_eq, List.all_eq_true]
        exact ⟨⟨h1, h2⟩, h3⟩
      · rw [Memory.wf_cons]
        simp only [Bool.and_eq_true, decide_eq_true_eq, List.all_eq_true]
        refine ⟨⟨ih h1, h2⟩, fun e he => ?_⟩
        rcases Memory.mem_write he with rfl | he
        · show b < a
          omega
        · exact h3 e he

/-- Writing a list of bytes keeps the canonical form. -/
theorem Memory.wf_writeList (bs : List Byte) {m : Memory} (hm : m.wf = true) {a : Nat}
    (ha : a + bs.length ≤ Config.memSize) : (m.writeList a bs).wf = true := by
  induction bs generalizing m a with
  | nil => exact hm
  | cons v vs ih =>
    simp only [List.length_cons] at ha
    exact ih (Memory.wf_write hm (by omega) v) (by omega)

/-- The race values written at an operation's end keep the canonical form. -/
theorem Memory.wf_foldl_write (l : List Word) (f : Word → Byte) {m : Memory} (hm : m.wf = true) :
    (l.foldl (fun m w => m.write w.toNat (f w)) m).wf = true := by
  induction l generalizing m with
  | nil => exact hm
  | cons w l ih => exact ih (Memory.wf_write hm w.isLt (f w))

/-- A byte that no listed race touches is unchanged by the race values. -/
theorem Memory.get?_foldl_write (l : List Word) (f : Word → Byte) (m : Memory) (a : Nat)
    (h : ∀ w ∈ l, w.toNat ≠ a) : (l.foldl (fun m w => m.write w.toNat (f w)) m).get? a = m.get? a := by
  induction l generalizing m with
  | nil => rfl
  | cons w l ih =>
    simp only [List.foldl_cons]
    rw [ih _ (fun w' hw' => h w' (List.mem_cons_of_mem _ hw'))]
    exact Memory.get?_write_other (Ne.symm (h w List.mem_cons_self))

/-! ### Reading a byte of the state's memory -/

/-- States with the same memory read the same bytes. -/
theorem State.memByte_congr {s t : State} (h : t.mem = s.mem) (a : Nat) : t.memByte a = s.memByte a := by
  simp only [State.memByte, h]

theorem State.memByte_of_get? {s t : State} {a : Nat} (h : t.mem.get? a = s.mem.get? a) :
    t.memByte a = s.memByte a := by
  simp only [State.memByte, h]

theorem State.memByte_memWrite (s : State) (a b : Nat) (v : Byte) :
    (s.memWrite a v).memByte b = if b = a then v else s.memByte b := by
  by_cases h : b = a <;> simp [State.memByte, State.memWrite, Memory.get?_write, h]

@[simp] theorem State.memByte_memWrite_self (s : State) (a : Nat) (v : Byte) : (s.memWrite a v).memByte a = v := by
  simp [State.memByte_memWrite]

theorem State.memByte_memWrite_other {s : State} {a b : Nat} {v : Byte} (h : b ≠ a) :
    (s.memWrite a v).memByte b = s.memByte b := by
  simp [State.memByte_memWrite, h]

/-- The reset state's memory has the canonical form. -/
theorem reset_mem_wf : State.reset.mem.wf = true := rfl

end Sys2Proof.Machine
end

