-- ==== Sys2Proof/Laws/State.lean ====
section
/-!
SUPPORT. One lemma for each field under each update of the state, so that no proof unfolds a record update.
-/

namespace Sys2Proof.Machine

/-! ### `withInputs`: other pending inputs -/

@[simp] theorem State.withInputs_ctrl (s : State) (l : List Input) : (s.withInputs l).ctrl = s.ctrl := rfl
@[simp] theorem State.withInputs_status (s : State) (l : List Input) : (s.withInputs l).status = s.status := rfl
@[simp] theorem State.withInputs_cfg (s : State) (l : List Input) : (s.withInputs l).cfg = s.cfg := rfl
@[simp] theorem State.withInputs_pos (s : State) (l : List Input) : (s.withInputs l).pos = s.pos := rfl
@[simp] theorem State.withInputs_eng (s : State) (l : List Input) : (s.withInputs l).eng = s.eng := rfl
@[simp] theorem State.withInputs_mem (s : State) (l : List Input) : (s.withInputs l).mem = s.mem := rfl
@[simp] theorem State.withInputs_plat_inReset (s : State) (l : List Input) :
    (s.withInputs l).plat.inReset = s.plat.inReset := rfl
@[simp] theorem State.withInputs_plat_readData (s : State) (l : List Input) :
    (s.withInputs l).plat.readData = s.plat.readData := rfl
@[simp] theorem State.withInputs_plat_races (s : State) (l : List Input) :
    (s.withInputs l).plat.races = s.plat.races := rfl
@[simp] theorem State.withInputs_plat_unseen (s : State) (l : List Input) :
    (s.withInputs l).plat.unseen = s.plat.unseen := rfl
@[simp] theorem State.withInputs_plat_draws (s : State) (l : List Input) :
    (s.withInputs l).plat.draws = s.plat.draws := rfl
@[simp] theorem State.withInputs_g3 (s : State) (l : List Input) : (s.withInputs l).g3 = s.g3 := rfl
@[simp] theorem State.withInputs_plat_inputs (s : State) (l : List Input) : (s.withInputs l).plat.inputs = l := rfl

/-! ### `drawn`: fresh draws -/

@[simp] theorem State.drawn_ctrl (s : State) : (s.drawn).ctrl = s.ctrl := rfl
@[simp] theorem State.drawn_status (s : State) : (s.drawn).status = s.status := rfl
@[simp] theorem State.drawn_cfg (s : State) : (s.drawn).cfg = s.cfg := rfl
@[simp] theorem State.drawn_pos (s : State) : (s.drawn).pos = s.pos := rfl
@[simp] theorem State.drawn_eng (s : State) : (s.drawn).eng = s.eng := rfl
@[simp] theorem State.drawn_mem (s : State) : (s.drawn).mem = s.mem := rfl
@[simp] theorem State.drawn_plat_inReset (s : State) : (s.drawn).plat.inReset = s.plat.inReset := rfl
@[simp] theorem State.drawn_plat_inputs (s : State) : (s.drawn).plat.inputs = s.plat.inputs := rfl
@[simp] theorem State.drawn_plat_readData (s : State) : (s.drawn).plat.readData = s.plat.readData := rfl
@[simp] theorem State.drawn_plat_races (s : State) : (s.drawn).plat.races = s.plat.races := rfl
@[simp] theorem State.drawn_plat_unseen (s : State) : (s.drawn).plat.unseen = s.plat.unseen := rfl
@[simp] theorem State.drawn_g3 (s : State) : (s.drawn).g3 = s.g3 := rfl
@[simp] theorem State.drawn_plat_draws (s : State) : (s.drawn).plat.draws = s.plat.draws + s.plat.races.length := rfl

/-! ### `memWrite`: one byte of memory -/

@[simp] theorem State.memWrite_ctrl (s : State) (a : Nat) (v : Byte) : (s.memWrite a v).ctrl = s.ctrl := rfl
@[simp] theorem State.memWrite_status (s : State) (a : Nat) (v : Byte) : (s.memWrite a v).status = s.status := rfl
@[simp] theorem State.memWrite_cfg (s : State) (a : Nat) (v : Byte) : (s.memWrite a v).cfg = s.cfg := rfl
@[simp] theorem State.memWrite_pos (s : State) (a : Nat) (v : Byte) : (s.memWrite a v).pos = s.pos := rfl
@[simp] theorem State.memWrite_eng (s : State) (a : Nat) (v : Byte) : (s.memWrite a v).eng = s.eng := rfl
@[simp] theorem State.memWrite_plat (s : State) (a : Nat) (v : Byte) : (s.memWrite a v).plat = s.plat := rfl
@[simp] theorem State.memWrite_g3 (s : State) (a : Nat) (v : Byte) : (s.memWrite a v).g3 = s.g3 := rfl
@[simp] theorem State.memWrite_mem (s : State) (a : Nat) (v : Byte) : (s.memWrite a v).mem = s.mem.write a v := rfl

/-! ### `outWrite`: one byte of OUT -/

@[simp] theorem State.outWrite_ctrl (s : State) (k : Nat) (v : Byte) : (s.outWrite k v).ctrl = s.ctrl := rfl
@[simp] theorem State.outWrite_status (s : State) (k : Nat) (v : Byte) : (s.outWrite k v).status = s.status := rfl
@[simp] theorem State.outWrite_cfg (s : State) (k : Nat) (v : Byte) : (s.outWrite k v).cfg = s.cfg := rfl
@[simp] theorem State.outWrite_pos (s : State) (k : Nat) (v : Byte) : (s.outWrite k v).pos = s.pos := rfl
@[simp] theorem State.outWrite_eng (s : State) (k : Nat) (v : Byte) : (s.outWrite k v).eng = s.eng := rfl
@[simp] theorem State.outWrite_plat (s : State) (k : Nat) (v : Byte) : (s.outWrite k v).plat = s.plat := rfl
@[simp] theorem State.outWrite_g3 (s : State) (k : Nat) (v : Byte) : (s.outWrite k v).g3 = s.g3 := rfl
@[simp] theorem State.outWrite_mem (s : State) (k : Nat) (v : Byte) :
    (s.outWrite k v).mem = s.mem.write (s.cfg.outBase.toNat + k) v := rfl

/-! ### `settle`: the races' values -/

@[simp] theorem State.settle_ctrl (s : State) : (s.settle).ctrl = s.ctrl := rfl
@[simp] theorem State.settle_status (s : State) : (s.settle).status = s.status := rfl
@[simp] theorem State.settle_cfg (s : State) : (s.settle).cfg = s.cfg := rfl
@[simp] theorem State.settle_pos (s : State) : (s.settle).pos = s.pos := rfl
@[simp] theorem State.settle_eng (s : State) : (s.settle).eng = s.eng := rfl
@[simp] theorem State.settle_plat_inReset (s : State) : (s.settle).plat.inReset = s.plat.inReset := rfl
@[simp] theorem State.settle_plat_inputs (s : State) : (s.settle).plat.inputs = s.plat.inputs := rfl
@[simp] theorem State.settle_plat_readData (s : State) : (s.settle).plat.readData = s.plat.readData := rfl
@[simp] theorem State.settle_plat_unseen (s : State) : (s.settle).plat.unseen = s.plat.unseen := rfl
@[simp] theorem State.settle_g3 (s : State) : (s.settle).g3 = s.g3 := rfl
@[simp] theorem State.settle_plat_races (s : State) : (s.settle).plat.races = [] := rfl
@[simp] theorem State.settle_plat_draws (s : State) : (s.settle).plat.draws = s.plat.draws + s.plat.races.length := rfl

/-! ### `endOperation`: what every end of an operation does -/

@[simp] theorem State.endOperation_ctrl (s : State) : (s.endOperation).ctrl = s.ctrl := rfl
@[simp] theorem State.endOperation_cfg (s : State) : (s.endOperation).cfg = s.cfg := rfl
@[simp] theorem State.endOperation_pos (s : State) : (s.endOperation).pos = s.pos := rfl
@[simp] theorem State.endOperation_status_eobi (s : State) : (s.endOperation).status.eobi = s.status.eobi := rfl
@[simp] theorem State.endOperation_status_errcode (s : State) :
    (s.endOperation).status.errcode = s.status.errcode := rfl
@[simp] theorem State.endOperation_plat_inReset (s : State) : (s.endOperation).plat.inReset = s.plat.inReset := rfl
@[simp] theorem State.endOperation_plat_inputs (s : State) : (s.endOperation).plat.inputs = s.plat.inputs := rfl
@[simp] theorem State.endOperation_plat_readData (s : State) : (s.endOperation).plat.readData = s.plat.readData := rfl
@[simp] theorem State.endOperation_g3 (s : State) : (s.endOperation).g3 = s.g3 := rfl
@[simp] theorem State.endOperation_status_done (s : State) : (s.endOperation).status.done = true := rfl
@[simp] theorem State.endOperation_eng (s : State) : (s.endOperation).eng = { s.eng with phase := .idle } := rfl
@[simp] theorem State.endOperation_mem (s : State) : (s.endOperation).mem = s.settle.mem := rfl
@[simp] theorem State.endOperation_plat_races (s : State) : (s.endOperation).plat.races = [] := rfl
@[simp] theorem State.endOperation_plat_unseen (s : State) :
    (s.endOperation).plat.unseen = { base := s.cfg.outBase, len := s.cfg.outLen } :: s.plat.unseen := rfl

/-! ### `raise`: an error ends the operation -/

@[simp] theorem State.raise_ctrl (s : State) (c : ErrCode) : (s.raise c).ctrl = s.ctrl := rfl
@[simp] theorem State.raise_cfg (s : State) (c : ErrCode) : (s.raise c).cfg = s.cfg := rfl
@[simp] theorem State.raise_pos (s : State) (c : ErrCode) : (s.raise c).pos = s.pos := rfl
@[simp] theorem State.raise_status_eobi (s : State) (c : ErrCode) : (s.raise c).status.eobi = s.status.eobi := rfl
@[simp] theorem State.raise_plat_inReset (s : State) (c : ErrCode) : (s.raise c).plat.inReset = s.plat.inReset := rfl
@[simp] theorem State.raise_plat_inputs (s : State) (c : ErrCode) : (s.raise c).plat.inputs = s.plat.inputs := rfl
@[simp] theorem State.raise_plat_readData (s : State) (c : ErrCode) : (s.raise c).plat.readData = s.plat.readData := rfl
@[simp] theorem State.raise_g3 (s : State) (c : ErrCode) : (s.raise c).g3 = s.g3 := rfl
@[simp] theorem State.raise_status_errcode (s : State) (c : ErrCode) : (s.raise c).status.errcode = c := rfl
@[simp] theorem State.raise_status_done (s : State) (c : ErrCode) : (s.raise c).status.done = true := rfl
@[simp] theorem State.raise_eng (s : State) (c : ErrCode) : (s.raise c).eng = { s.eng with phase := .idle } := rfl
@[simp] theorem State.raise_mem (s : State) (c : ErrCode) : (s.raise c).mem = s.settle.mem := rfl
@[simp] theorem State.raise_plat_races (s : State) (c : ErrCode) : (s.raise c).plat.races = [] := rfl
@[simp] theorem State.raise_plat_unseen (s : State) (c : ErrCode) :
    (s.raise c).plat.unseen = { base := s.cfg.outBase, len := s.cfg.outLen } :: s.plat.unseen := rfl

/-! ### `finish`: success ends the operation -/

@[simp] theorem State.finish_ctrl (s : State) : (s.finish).ctrl = s.ctrl := rfl
@[simp] theorem State.finish_cfg (s : State) : (s.finish).cfg = s.cfg := rfl
@[simp] theorem State.finish_pos (s : State) : (s.finish).pos = s.pos := rfl
@[simp] theorem State.finish_status_eobi (s : State) : (s.finish).status.eobi = s.status.eobi := rfl
@[simp] theorem State.finish_status_errcode (s : State) : (s.finish).status.errcode = s.status.errcode := rfl
@[simp] theorem State.finish_plat_inReset (s : State) : (s.finish).plat.inReset = s.plat.inReset := rfl
@[simp] theorem State.finish_plat_inputs (s : State) : (s.finish).plat.inputs = s.plat.inputs := rfl
@[simp] theorem State.finish_plat_readData (s : State) : (s.finish).plat.readData = s.plat.readData := rfl
@[simp] theorem State.finish_g3 (s : State) : (s.finish).g3 = s.g3 := rfl
@[simp] theorem State.finish_status_done (s : State) : (s.finish).status.done = true := rfl
@[simp] theorem State.finish_eng (s : State) : (s.finish).eng = { s.eng with phase := .idle } := rfl
@[simp] theorem State.finish_mem (s : State) : (s.finish).mem = s.settle.mem := rfl
@[simp] theorem State.finish_plat_races (s : State) : (s.finish).plat.races = [] := rfl
@[simp] theorem State.finish_plat_unseen (s : State) :
    (s.finish).plat.unseen = { base := s.cfg.outBase, len := s.cfg.outLen } :: s.plat.unseen := rfl

/-! ### `acknowledge`: DONE is cleared -/

@[simp] theorem State.acknowledge_ctrl (s : State) : (s.acknowledge).ctrl = s.ctrl := rfl
@[simp] theorem State.acknowledge_cfg (s : State) : (s.acknowledge).cfg = s.cfg := rfl
@[simp] theorem State.acknowledge_pos (s : State) : (s.acknowledge).pos = s.pos := rfl
@[simp] theorem State.acknowledge_eng (s : State) : (s.acknowledge).eng = s.eng := rfl
@[simp] theorem State.acknowledge_mem (s : State) : (s.acknowledge).mem = s.mem := rfl
@[simp] theorem State.acknowledge_plat (s : State) : (s.acknowledge).plat = s.plat := rfl
@[simp] theorem State.acknowledge_status_eobi (s : State) : (s.acknowledge).status.eobi = s.status.eobi := rfl
@[simp] theorem State.acknowledge_status_errcode (s : State) : (s.acknowledge).status.errcode = s.status.errcode := rfl
@[simp] theorem State.acknowledge_g3 (s : State) : (s.acknowledge).g3 = s.g3 := rfl
@[simp] theorem State.acknowledge_status_done (s : State) : (s.acknowledge).status.done = false := rfl

/-! ### `assertReset`: reset is asserted -/

@[simp] theorem State.assertReset_ctrl (s : State) : (s.assertReset).ctrl = s.ctrl := rfl
@[simp] theorem State.assertReset_status (s : State) : (s.assertReset).status = s.status := rfl
@[simp] theorem State.assertReset_cfg (s : State) : (s.assertReset).cfg = s.cfg := rfl
@[simp] theorem State.assertReset_pos (s : State) : (s.assertReset).pos = s.pos := rfl
@[simp] theorem State.assertReset_eng (s : State) : (s.assertReset).eng = s.eng := rfl
@[simp] theorem State.assertReset_plat_inputs (s : State) : (s.assertReset).plat.inputs = s.plat.inputs := rfl
@[simp] theorem State.assertReset_plat_readData (s : State) : (s.assertReset).plat.readData = s.plat.readData := rfl
@[simp] theorem State.assertReset_g3 (s : State) : (s.assertReset).g3 = s.g3 := rfl
@[simp] theorem State.assertReset_plat_inReset (s : State) : (s.assertReset).plat.inReset = true := rfl
@[simp] theorem State.assertReset_plat_races (s : State) : (s.assertReset).plat.races = [] := rfl
@[simp] theorem State.assertReset_plat_unseen (s : State) : (s.assertReset).plat.unseen = [] := rfl
@[simp] theorem State.assertReset_mem (s : State) : (s.assertReset).mem = s.settle.mem := rfl

/-! ### `startAction`: START -/

@[simp] theorem State.startAction_ctrl (s : State) : (s.startAction).ctrl = s.ctrl := rfl
@[simp] theorem State.startAction_cfg (s : State) : (s.startAction).cfg = s.cfg := rfl
@[simp] theorem State.startAction_mem (s : State) : (s.startAction).mem = s.mem := rfl
@[simp] theorem State.startAction_plat (s : State) : (s.startAction).plat = s.plat := rfl
@[simp] theorem State.startAction_g3 (s : State) : (s.startAction).g3 = s.g3 := rfl
@[simp] theorem State.startAction_status (s : State) : (s.startAction).status = .zero := rfl
@[simp] theorem State.startAction_pos (s : State) : (s.startAction).pos = .zero := rfl
@[simp] theorem State.startAction_eng (s : State) : (s.startAction).eng = { s.eng with phase := .start } := rfl

/-! ### `withReadData`: a host read's value -/

@[simp] theorem State.withReadData_ctrl (s : State) (v : Word) : (s.withReadData v).ctrl = s.ctrl := rfl
@[simp] theorem State.withReadData_status (s : State) (v : Word) : (s.withReadData v).status = s.status := rfl
@[simp] theorem State.withReadData_cfg (s : State) (v : Word) : (s.withReadData v).cfg = s.cfg := rfl
@[simp] theorem State.withReadData_pos (s : State) (v : Word) : (s.withReadData v).pos = s.pos := rfl
@[simp] theorem State.withReadData_eng (s : State) (v : Word) : (s.withReadData v).eng = s.eng := rfl
@[simp] theorem State.withReadData_mem (s : State) (v : Word) : (s.withReadData v).mem = s.mem := rfl
@[simp] theorem State.withReadData_plat_inReset (s : State) (v : Word) :
    (s.withReadData v).plat.inReset = s.plat.inReset := rfl
@[simp] theorem State.withReadData_plat_inputs (s : State) (v : Word) :
    (s.withReadData v).plat.inputs = s.plat.inputs := rfl
@[simp] theorem State.withReadData_plat_races (s : State) (v : Word) :
    (s.withReadData v).plat.races = s.plat.races := rfl
@[simp] theorem State.withReadData_plat_unseen (s : State) (v : Word) :
    (s.withReadData v).plat.unseen = s.plat.unseen := rfl
@[simp] theorem State.withReadData_plat_draws (s : State) (v : Word) :
    (s.withReadData v).plat.draws = s.plat.draws := rfl
@[simp] theorem State.withReadData_g3 (s : State) (v : Word) : (s.withReadData v).g3 = s.g3 := rfl
@[simp] theorem State.withReadData_plat_readData (s : State) (v : Word) : (s.withReadData v).plat.readData = v := rfl

/-! ### `moveTo`: the end of an RLE unit -/

@[simp] theorem State.moveTo_ctrl (s : State) (p x y : Nat) : (s.moveTo p x y).ctrl = s.ctrl := rfl
@[simp] theorem State.moveTo_status (s : State) (p x y : Nat) : (s.moveTo p x y).status = s.status := rfl
@[simp] theorem State.moveTo_cfg (s : State) (p x y : Nat) : (s.moveTo p x y).cfg = s.cfg := rfl
@[simp] theorem State.moveTo_mem (s : State) (p x y : Nat) : (s.moveTo p x y).mem = s.mem := rfl
@[simp] theorem State.moveTo_plat (s : State) (p x y : Nat) : (s.moveTo p x y).plat = s.plat := rfl
@[simp] theorem State.moveTo_pos_outPos (s : State) (p x y : Nat) : (s.moveTo p x y).pos.outPos = s.pos.outPos := rfl
@[simp] theorem State.moveTo_g3 (s : State) (p x y : Nat) : (s.moveTo p x y).g3 = s.g3 := rfl
@[simp] theorem State.moveTo_pos_inPos (s : State) (p x y : Nat) : (s.moveTo p x y).pos.inPos = .ofNat 32 p := rfl
@[simp] theorem State.moveTo_pos_curX (s : State) (p x y : Nat) : (s.moveTo p x y).pos.curX = .ofNat 32 x := rfl
@[simp] theorem State.moveTo_pos_curY (s : State) (p x y : Nat) : (s.moveTo p x y).pos.curY = .ofNat 32 y := rfl
@[simp] theorem State.moveTo_eng (s : State) (p x y : Nat) :
    (s.moveTo p x y).eng = { s.eng with p := .ofNat 32 p, x := .ofNat 32 x, y := .ofNat 32 y } := rfl

/-! ### `consumeBits`: bits of a Group-3 code -/

@[simp] theorem State.consumeBits_ctrl (s : State) (n : Nat) : (s.consumeBits n).ctrl = s.ctrl := rfl
@[simp] theorem State.consumeBits_status (s : State) (n : Nat) : (s.consumeBits n).status = s.status := rfl
@[simp] theorem State.consumeBits_cfg (s : State) (n : Nat) : (s.consumeBits n).cfg = s.cfg := rfl
@[simp] theorem State.consumeBits_mem (s : State) (n : Nat) : (s.consumeBits n).mem = s.mem := rfl
@[simp] theorem State.consumeBits_plat (s : State) (n : Nat) : (s.consumeBits n).plat = s.plat := rfl
@[simp] theorem State.consumeBits_pos_outPos (s : State) (n : Nat) : (s.consumeBits n).pos.outPos = s.pos.outPos := rfl
@[simp] theorem State.consumeBits_pos_curX (s : State) (n : Nat) : (s.consumeBits n).pos.curX = s.pos.curX := rfl
@[simp] theorem State.consumeBits_pos_curY (s : State) (n : Nat) : (s.consumeBits n).pos.curY = s.pos.curY := rfl
@[simp] theorem State.consumeBits_g3 (s : State) (n : Nat) : (s.consumeBits n).g3 = s.g3 := rfl
@[simp] theorem State.consumeBits_eng (s : State) (n : Nat) :
    (s.consumeBits n).eng = { s.eng with q := .ofNat 35 (s.eng.q.toNat + n) } := rfl
@[simp] theorem State.consumeBits_pos_inPos (s : State) (n : Nat) :
    (s.consumeBits n).pos.inPos = .ofNat 32 ((s.eng.q.toNat + n + 7) / 8) := rfl

/-! ### `consumeCode`: the end of a Group-3 code -/

@[simp] theorem State.consumeCode_ctrl (s : State) (n : Nat) : (s.consumeCode n).ctrl = s.ctrl := rfl
@[simp] theorem State.consumeCode_status (s : State) (n : Nat) : (s.consumeCode n).status = s.status := rfl
@[simp] theorem State.consumeCode_cfg (s : State) (n : Nat) : (s.consumeCode n).cfg = s.cfg := rfl
@[simp] theorem State.consumeCode_mem (s : State) (n : Nat) : (s.consumeCode n).mem = s.mem := rfl
@[simp] theorem State.consumeCode_plat (s : State) (n : Nat) : (s.consumeCode n).plat = s.plat := rfl
@[simp] theorem State.consumeCode_pos_outPos (s : State) (n : Nat) : (s.consumeCode n).pos.outPos = s.pos.outPos := rfl
@[simp] theorem State.consumeCode_g3 (s : State) (n : Nat) : (s.consumeCode n).g3 = s.g3 := rfl
@[simp] theorem State.consumeCode_pos_curX (s : State) (n : Nat) : (s.consumeCode n).pos.curX = s.eng.x := rfl
@[simp] theorem State.consumeCode_pos_curY (s : State) (n : Nat) : (s.consumeCode n).pos.curY = s.eng.y := rfl
@[simp] theorem State.consumeCode_eng (s : State) (n : Nat) :
    (s.consumeCode n).eng = { s.eng with q := .ofNat 35 (s.eng.q.toNat + n) } := rfl
@[simp] theorem State.consumeCode_pos_inPos (s : State) (n : Nat) :
    (s.consumeCode n).pos.inPos = .ofNat 32 ((s.eng.q.toNat + n + 7) / 8) := rfl

/-! ### `cover`: the encoder's cursor -/

@[simp] theorem State.cover_ctrl (s : State) (n k : Nat) : (s.cover n k).ctrl = s.ctrl := rfl
@[simp] theorem State.cover_status (s : State) (n k : Nat) : (s.cover n k).status = s.status := rfl
@[simp] theorem State.cover_cfg (s : State) (n k : Nat) : (s.cover n k).cfg = s.cfg := rfl
@[simp] theorem State.cover_mem (s : State) (n k : Nat) : (s.cover n k).mem = s.mem := rfl
@[simp] theorem State.cover_plat (s : State) (n k : Nat) : (s.cover n k).plat = s.plat := rfl
@[simp] theorem State.cover_pos_inPos (s : State) (n k : Nat) : (s.cover n k).pos.inPos = s.pos.inPos := rfl
@[simp] theorem State.cover_pos_outPos (s : State) (n k : Nat) : (s.cover n k).pos.outPos = s.pos.outPos := rfl
@[simp] theorem State.cover_pos_curY (s : State) (n k : Nat) : (s.cover n k).pos.curY = s.pos.curY := rfl
@[simp] theorem State.cover_g3 (s : State) (n k : Nat) : (s.cover n k).g3 = s.g3 := rfl
@[simp] theorem State.cover_pos_curX (s : State) (n k : Nat) :
    (s.cover n k).pos.curX = .ofNat 32 (s.eng.cnt.toNat + n) := rfl
@[simp] theorem State.cover_eng (s : State) (n k : Nat) :
    (s.cover n k).eng = { s.eng with cnt := .ofNat 32 (s.eng.cnt.toNat + n), i := .ofNat 32 (s.eng.i.toNat + k) } := rfl

/-! ### `withPhase`: another phase -/

@[simp] theorem State.withPhase_ctrl (s : State) (p : Phase) : (s.withPhase p).ctrl = s.ctrl := rfl
@[simp] theorem State.withPhase_status (s : State) (p : Phase) : (s.withPhase p).status = s.status := rfl
@[simp] theorem State.withPhase_cfg (s : State) (p : Phase) : (s.withPhase p).cfg = s.cfg := rfl
@[simp] theorem State.withPhase_pos (s : State) (p : Phase) : (s.withPhase p).pos = s.pos := rfl
@[simp] theorem State.withPhase_mem (s : State) (p : Phase) : (s.withPhase p).mem = s.mem := rfl
@[simp] theorem State.withPhase_plat (s : State) (p : Phase) : (s.withPhase p).plat = s.plat := rfl
@[simp] theorem State.withPhase_g3 (s : State) (p : Phase) : (s.withPhase p).g3 = s.g3 := rfl
@[simp] theorem State.withPhase_eng (s : State) (p : Phase) : (s.withPhase p).eng = { s.eng with phase := p } := rfl

/-! ### Operations with cases: what each field keeps -/

@[simp] theorem State.deassertReset_mem (s : State) : s.deassertReset.mem = s.mem := by
  unfold State.deassertReset
  split <;> rfl

@[simp] theorem State.deassertReset_g3 (s : State) : s.deassertReset.g3 = s.g3 := by
  unfold State.deassertReset
  split <;> rfl

@[simp] theorem State.observe_ctrl (s : State) (b : Bool) : (s.observe b).ctrl = s.ctrl := by
  cases b <;> rfl

@[simp] theorem State.observe_status (s : State) (b : Bool) : (s.observe b).status = s.status := by
  cases b <;> rfl

@[simp] theorem State.observe_cfg (s : State) (b : Bool) : (s.observe b).cfg = s.cfg := by
  cases b <;> rfl

@[simp] theorem State.observe_pos (s : State) (b : Bool) : (s.observe b).pos = s.pos := by
  cases b <;> rfl

@[simp] theorem State.observe_eng (s : State) (b : Bool) : (s.observe b).eng = s.eng := by
  cases b <;> rfl

@[simp] theorem State.observe_mem (s : State) (b : Bool) : (s.observe b).mem = s.mem := by
  cases b <;> rfl

@[simp] theorem State.observe_g3 (s : State) (b : Bool) : (s.observe b).g3 = s.g3 := by
  cases b <;> rfl

@[simp] theorem State.observe_plat_inReset (s : State) (b : Bool) : (s.observe b).plat.inReset = s.plat.inReset := by
  cases b <;> rfl

@[simp] theorem State.observe_plat_inputs (s : State) (b : Bool) : (s.observe b).plat.inputs = s.plat.inputs := by
  cases b <;> rfl

@[simp] theorem State.observe_plat_readData (s : State) (b : Bool) : (s.observe b).plat.readData = s.plat.readData := by
  cases b <;> rfl

@[simp] theorem State.observe_plat_races (s : State) (b : Bool) : (s.observe b).plat.races = s.plat.races := by
  cases b <;> rfl

@[simp] theorem State.observe_plat_draws (s : State) (b : Bool) : (s.observe b).plat.draws = s.plat.draws := by
  cases b <;> rfl

@[simp] theorem State.observe_plat_unseen (s : State) (b : Bool) :
    (s.observe b).plat.unseen = if b then [] else s.plat.unseen := by
  cases b <;> rfl

@[simp] theorem State.outWriteList_ctrl (vs : List Byte) (s : State) (k : Nat) :
    (s.outWriteList k vs).ctrl = s.ctrl := by
  induction vs generalizing s k with
  | nil => rfl
  | cons v vs ih => exact ih _ _

@[simp] theorem State.outWriteList_status (vs : List Byte) (s : State) (k : Nat) :
    (s.outWriteList k vs).status = s.status := by
  induction vs generalizing s k with
  | nil => rfl
  | cons v vs ih => exact ih _ _

@[simp] theorem State.outWriteList_cfg (vs : List Byte) (s : State) (k : Nat) :
    (s.outWriteList k vs).cfg = s.cfg := by
  induction vs generalizing s k with
  | nil => rfl
  | cons v vs ih => exact ih _ _

@[simp] theorem State.outWriteList_pos (vs : List Byte) (s : State) (k : Nat) :
    (s.outWriteList k vs).pos = s.pos := by
  induction vs generalizing s k with
  | nil => rfl
  | cons v vs ih => exact ih _ _

@[simp] theorem State.outWriteList_eng (vs : List Byte) (s : State) (k : Nat) :
    (s.outWriteList k vs).eng = s.eng := by
  induction vs generalizing s k with
  | nil => rfl
  | cons v vs ih => exact ih _ _

@[simp] theorem State.outWriteList_plat (vs : List Byte) (s : State) (k : Nat) :
    (s.outWriteList k vs).plat = s.plat := by
  induction vs generalizing s k with
  | nil => rfl
  | cons v vs ih => exact ih _ _

@[simp] theorem State.outWriteList_g3 (vs : List Byte) (s : State) (k : Nat) :
    (s.outWriteList k vs).g3 = s.g3 := by
  induction vs generalizing s k with
  | nil => rfl
  | cons v vs ih => exact ih _ _

@[simp] theorem State.initialise_ctrl (s : State) (op : Operation) :
    (s.initialise op).ctrl = s.ctrl := by
  cases op <;> rfl

@[simp] theorem State.initialise_status (s : State) (op : Operation) :
    (s.initialise op).status = s.status := by
  cases op <;> rfl

@[simp] theorem State.initialise_cfg (s : State) (op : Operation) :
    (s.initialise op).cfg = s.cfg := by
  cases op <;> rfl

@[simp] theorem State.initialise_mem (s : State) (op : Operation) :
    (s.initialise op).mem = s.mem := by
  cases op <;> rfl

@[simp] theorem State.initialise_plat (s : State) (op : Operation) :
    (s.initialise op).plat = s.plat := by
  cases op <;> rfl

@[simp] theorem State.initialise_g3 (s : State) (op : Operation) :
    (s.initialise op).g3 = s.g3 := by
  cases op <;> rfl

@[simp] theorem State.initialise_pos_outPos (s : State) (op : Operation) :
    (s.initialise op).pos.outPos = s.pos.outPos := by
  cases op <;> rfl

@[simp] theorem State.initialise_phase (s : State) (op : Operation) :
    (s.initialise op).eng.phase = s.eng.phase := by
  cases op <;> rfl

@[simp] theorem State.enterOperation_ctrl (s : State) (op : Operation) (d : Depth) :
    (s.enterOperation op d).ctrl = s.ctrl := by
  simp [State.enterOperation]

@[simp] theorem State.enterOperation_status (s : State) (op : Operation) (d : Depth) :
    (s.enterOperation op d).status = s.status := by
  simp [State.enterOperation]

@[simp] theorem State.enterOperation_cfg (s : State) (op : Operation) (d : Depth) :
    (s.enterOperation op d).cfg = s.cfg := by
  simp [State.enterOperation]

@[simp] theorem State.enterOperation_mem (s : State) (op : Operation) (d : Depth) :
    (s.enterOperation op d).mem = s.mem := by
  simp [State.enterOperation]

@[simp] theorem State.enterOperation_plat (s : State) (op : Operation) (d : Depth) :
    (s.enterOperation op d).plat = s.plat := by
  simp [State.enterOperation]

@[simp] theorem State.enterOperation_g3 (s : State) (op : Operation) (d : Depth) :
    (s.enterOperation op d).g3 = s.g3 := by
  simp [State.enterOperation]

@[simp] theorem State.enterOperation_pos_outPos (s : State) (op : Operation) (d : Depth) :
    (s.enterOperation op d).pos.outPos = s.pos.outPos := by
  simp [State.enterOperation]

/-! ### Without races nothing is drawn -/

theorem State.settle_mem_of_no_races {s : State} (h : s.plat.races = []) : s.settle.mem = s.mem := by
  simp [State.settle, h]

theorem State.settle_of_no_races {s : State} (h : s.plat.races = []) : s.settle = s := by
  obtain ⟨c, st, g, p, e, m, ⟨i, il, rd, ra, un, dr⟩, t⟩ := s
  simp only at h
  subst h
  rfl

theorem State.drawn_of_no_races {s : State} (h : s.plat.races = []) : s.drawn = s := by
  obtain ⟨c, st, g, p, e, m, ⟨i, il, rd, ra, un, dr⟩, t⟩ := s
  simp only at h
  subst h
  rfl

theorem State.finish_of_no_races {s : State} (h : s.plat.races = []) : s.finish = s.done := by
  simp only [State.finish, State.endOperation, State.settle_of_no_races h, State.done]

theorem State.raise_of_no_races {s : State} (h : s.plat.races = []) (c : ErrCode) : s.raise c = s.ended c := by
  have he : s.endOperation = s.done := State.finish_of_no_races h
  simp only [State.raise, he, State.ended]

theorem State.engRead_of_no_races {s : State} (h : s.plat.races = []) (place a : Nat) :
    s.engRead place a = s.memByte a := by
  simp [State.engRead, State.raced, h]

theorem State.inRead_of_no_races {s : State} (h : s.plat.races = []) (place k : Nat) :
    s.inRead place k = s.memByte (s.cfg.inBase.toNat + k) :=
  State.engRead_of_no_races h place _

@[simp] theorem State.memByte_drawn (s : State) (a : Nat) : s.drawn.memByte a = s.memByte a := rfl

@[simp] theorem State.memByte_withInputs (s : State) (l : List Input) (a : Nat) :
    (s.withInputs l).memByte a = s.memByte a := rfl

end Sys2Proof.Machine
end

