-- ==== Sys2Proof/Laws/Ops.lean ====
section
/-!
SUPPORT. What each operation of Machine/Ops.lean can do, said once: the bytes it writes, the way an operation ends, and
reset.
-/

namespace Sys2Proof.Machine

/-! ### Writing OUT -/

theorem State.memByte_outWrite (s : State) (k : Nat) (v : Byte) (a : Nat) :
    (s.outWrite k v).memByte a = if a = s.cfg.outBase.toNat + k then v else s.memByte a :=
  State.memByte_memWrite s _ a v

/-- A list of bytes written to OUT: each at its place, and nothing else. -/
theorem State.memByte_outWriteList (vs : List Byte) (s : State) (k a : Nat) :
    (s.outWriteList k vs).memByte a =
      if s.cfg.outBase.toNat + k ≤ a ∧ a < s.cfg.outBase.toNat + k + vs.length then
        vs.getD (a - (s.cfg.outBase.toNat + k)) 0
      else s.memByte a := by
  induction vs generalizing s k with
  | nil => simp [State.outWriteList]
  | cons v vs ih =>
    rw [State.outWriteList, ih, State.memByte_outWrite, State.outWrite_cfg]
    simp only [List.length_cons]
    by_cases h : a = s.cfg.outBase.toNat + k
    · subst h
      rw [if_neg (by omega), if_pos (by omega), if_pos (by omega)]
      simp
    · by_cases h' : s.cfg.outBase.toNat + k ≤ a ∧ a < s.cfg.outBase.toNat + k + (vs.length + 1)
      · rw [if_pos (by omega), if_pos h']
        obtain ⟨n, hn⟩ : ∃ n, a - (s.cfg.outBase.toNat + k) = n + 1 := ⟨a - (s.cfg.outBase.toNat + k) - 1, by omega⟩
        rw [hn, List.getD_cons_succ]
        congr 1
        omega
      · rw [if_neg (by omega), if_neg h', if_neg h]

theorem State.outWriteList_eq (s : State) (k : Nat) (vs : List Byte) :
    s.outWriteList k vs = { s with mem := (s.outWriteList k vs).mem } := by
  have h1 := State.outWriteList_ctrl vs s k
  have h2 := State.outWriteList_status vs s k
  have h3 := State.outWriteList_cfg vs s k
  have h4 := State.outWriteList_pos vs s k
  have h5 := State.outWriteList_eng vs s k
  have h6 := State.outWriteList_plat vs s k
  have h7 := State.outWriteList_g3 vs s k
  generalize s.outWriteList k vs = t at *
  obtain ⟨⟩ := t
  simp_all

/-- Writes inside OUT keep the canonical form of memory. -/
theorem State.outWriteList_memOk (vs : List Byte) {s : State} {k : Nat} (hm : s.mem.wf = true)
    (hk : s.cfg.outBase.toNat + (k + vs.length) ≤ Config.memSize) : (s.outWriteList k vs).mem.wf = true := by
  induction vs generalizing s k with
  | nil => exact hm
  | cons v vs ih =>
    simp only [List.length_cons] at hk
    refine ih (s := s.outWrite k v) ?_ ?_
    · rw [State.outWrite_mem]
      exact Memory.wf_write hm (by omega) v
    · rw [State.outWrite_cfg]
      omega

theorem State.outWriteList_append (u v : List Byte) (s : State) (k : Nat) :
    s.outWriteList k (u ++ v) = (s.outWriteList k u).outWriteList (k + u.length) v := by
  induction u generalizing s k with
  | nil => rfl
  | cons b u ih =>
    simp only [List.cons_append, State.outWriteList, ih, List.length_cons]
    congr 1
    omega

/-! ### The races' end -/

/-- The draw that a raced byte of OUT is once the operation has ended. -/
def State.settledByte (s : State) (a : Nat) : Byte := Config.raceByte (s.plat.draws + s.plat.races.length) 0 a

theorem State.settle_mem_eq (s : State) :
    s.settle.mem = (s.plat.races.filter fun w => s.inOut w.toNat).foldl
      (fun m w => m.write w.toNat (s.settledByte w.toNat)) s.mem := rfl

/-- At the end of an operation only raced bytes of OUT can change. -/
theorem State.memByte_settle {s : State} {a : Nat} (h : s.inOut a = false) : s.settle.memByte a = s.memByte a := by
  refine State.memByte_of_get? ?_
  rw [State.settle_mem_eq]
  refine Memory.get?_foldl_write _ (fun w => s.settledByte w.toNat) _ _ ?_
  intro w hw hwa
  rw [List.mem_filter] at hw
  simp [hwa, h] at hw

theorem State.settle_memOk {s : State} (h : s.mem.wf = true) : s.settle.mem.wf = true :=
  Memory.wf_foldl_write _ (fun w => s.settledByte w.toNat) h

/-- A raced byte of OUT is a draw once the operation has ended. -/
theorem State.memByte_settle_raced {s : State} {a : Word} (hr : a ∈ s.plat.races) (ho : s.inOut a.toNat = true) :
    s.settle.memByte a.toNat = s.settledByte a.toNat := by
  have key : ∀ (l : List Word) (m : Memory), (a ∈ l ∨ m.get? a.toNat = some (s.settledByte a.toNat)) →
      (l.foldl (fun m w => m.write w.toNat (s.settledByte w.toNat)) m).get? a.toNat =
        some (s.settledByte a.toNat) := by
    intro l
    induction l with
    | nil => simp
    | cons w l ih =>
      intro m h
      refine ih _ ?_
      by_cases hw : a.toNat = w.toNat
      · rw [hw]
        simp
      · rw [Memory.get?_write_other hw]
        rcases h with h | h
        · rcases List.mem_cons.mp h with rfl | h
          · exact absurd rfl hw
          · exact .inl h
        · exact .inr h
  have := key (s.plat.races.filter fun w => s.inOut w.toNat) s.mem (.inl (List.mem_filter.mpr ⟨hr, ho⟩))
  rw [← State.settle_mem_eq] at this
  simp only [State.memByte, this]

/-! ### How an operation ends -/

theorem State.memByte_raise {s : State} {a : Nat} (h : s.inOut a = false) (c : ErrCode) :
    (s.raise c).memByte a = s.memByte a := by
  rw [State.memByte_congr (State.raise_mem s c), State.memByte_settle h]

theorem State.memByte_finish {s : State} {a : Nat} (h : s.inOut a = false) : s.finish.memByte a = s.memByte a := by
  rw [State.memByte_congr (State.finish_mem s), State.memByte_settle h]

@[simp] theorem State.raise_busy (s : State) (c : ErrCode) : (s.raise c).busy = false := rfl

@[simp] theorem State.finish_busy (s : State) : s.finish.busy = false := rfl

/-- A unit takes effect exactly while its operation's body runs. -/
theorem State.within_eq_next {s : State} {op : Operation} {d : Depth} {e t : State} :
    s.within op d e = .next t ↔ s.running op d = true ∧ e = t := by
  unfold State.within
  split <;> simp_all

theorem State.within_of_running {s : State} {op : Operation} {d : Depth} (h : s.running op d = true) (e : State) :
    s.within op d e = .next e := by
  simp [State.within, h]

/-! ### What a running operation says of its configuration -/

theorem firstFailing_eq_none {l : List (Bool × ErrCode)} :
    firstFailing l = none ↔ ∀ c ∈ l, c.1 = false := by
  simp [firstFailing, List.find?_eq_none]

/-- The START checks passed: the facts the address arithmetic needs. -/
theorem configError_none {op : Operation} {d : Depth} {f : CmdFlags} {g : Cfg} (h : configError op d f g = none) :
    (∀ b, op.depth? = some b → b = d) ∧ legalDim g.width = true ∧ legalDim g.height = true ∧
    g.inBase.toNat + g.inLen.toNat ≤ Config.memSize ∧ g.outBase.toNat + g.outLen.toNat ≤ Config.memSize ∧
    (op = .unpack → g.outLen.toNat = g.width.toNat * g.height.toNat * outPixelSize f) ∧
    (op = .unpack ∨ op = .encRle8 ∨ op = .encRle4 → stride d g.width.toNat * g.height.toNat ≤ g.inLen.toNat) := by
  rw [configError, firstFailing_eq_none] at h
  simp only [configChecks, List.forall_mem_cons, List.not_mem_nil, false_imp_iff, implies_true, and_true] at h
  obtain ⟨h1, h2, h3, h4, h5, h6, h7⟩ := h
  simp only [Bool.or_eq_false_iff, Bool.and_eq_false_imp, decide_eq_false_iff_not, Bool.not_eq_false',
    not_lt, beq_iff_eq, bne_eq_false_iff_eq, Bool.or_eq_true] at h1 h2 h4 h6 h7
  refine ⟨fun b hb => ?_, h2.1, h2.2, h4.1.1, h4.1.2, h6, fun ho => h7 ?_⟩
  · rw [hb] at h1
    simpa using h1
  · tauto

theorem State.running_phase {s : State} {op : Operation} {d : Depth} (h : s.running op d = true) :
    s.eng.phase = .body := by
  simp only [State.running, Bool.and_eq_true, beq_iff_eq] at h
  exact h.1.1.1.1

theorem State.running_ctrl {s : State} {op : Operation} {d : Depth} (h : s.running op d = true) :
    s.ctrl.op = op.code ∧ s.ctrl.bpp = d.code := by
  simp only [State.running, Bool.and_eq_true, beq_iff_eq] at h
  exact ⟨h.1.1.1.2, h.1.1.2⟩

theorem State.running_config {s : State} {op : Operation} {d : Depth} (h : s.running op d = true) :
    configError op d s.ctrl.flags s.cfg = none := by
  simp only [State.running, Bool.and_eq_true, beq_iff_eq] at h
  exact h.1.2

theorem State.running_cursor {s : State} {op : Operation} {d : Depth} (h : s.running op d = true) :
    s.cursorOk op = true := by
  simp only [State.running, Bool.and_eq_true, beq_iff_eq] at h
  exact h.2

/-- OUT lies inside memory while an operation runs, so that no offset into it wraps (spec/20_memory.md R88). -/
theorem State.running_out {s : State} {op : Operation} {d : Depth} (h : s.running op d = true) :
    s.cfg.outBase.toNat + s.cfg.outLen.toNat ≤ Config.memSize :=
  (configError_none (State.running_config h)).2.2.2.2.1

@[simp] theorem Operation.ofCode_code (op : Operation) : Operation.ofCode op.code = some op := by
  cases op <;> rfl

@[simp] theorem Depth.ofCode_code (d : Depth) : Depth.ofCode d.code = some d := by
  cases d <;> rfl

theorem Operation.code_of_ofCode {v : BitVec 4} {op : Operation} (h : Operation.ofCode v = some op) : v = op.code := by
  revert v
  cases op <;> decide

theorem Depth.code_of_ofCode {v : BitVec 3} {d : Depth} (h : Depth.ofCode v = some d) : v = d.code := by
  revert v
  cases d <;> decide

/-! ### Reset -/

theorem State.memByte_assertReset {s : State} {a : Nat} (h : s.inOut a = false) :
    s.assertReset.memByte a = s.memByte a := by
  rw [State.memByte_congr (State.assertReset_mem s), State.memByte_settle h]

/-- After an asserted reset is deasserted, every register is 0 and the engine is idle. -/
theorem State.deassertReset_of_inReset {s : State} (h : s.plat.inReset = true) :
    s.deassertReset.ctrl = .zero ∧ s.deassertReset.status = .zero ∧ s.deassertReset.cfg = .zero ∧
    s.deassertReset.pos = .zero ∧ s.deassertReset.eng.phase = .idle ∧ s.deassertReset.mem = s.mem ∧
    s.deassertReset.plat.inReset = false ∧ s.deassertReset.plat.inputs = s.plat.inputs := by
  simp [State.deassertReset, h, Engine.unspecified]

theorem State.deassertReset_of_not_inReset {s : State} (h : s.plat.inReset = false) : s.deassertReset = s := by
  simp [State.deassertReset, h]

end Sys2Proof.Machine
end

