-- ==== Sys2Proof/Laws/HostPort.lean ====
section
/-!
SUPPORT. What the host's accesses can do, said once.
-/

namespace Sys2Proof.Machine

/-! ### CTRL and STATUS -/

theorem State.writeCtrl_of_busy {s : State} (h : s.busy = true) (v : Word) : s.writeCtrl v = s := by
  simp [State.writeCtrl, h]

theorem State.writeCtrl_start {s : State} (h : s.busy = false) {v : Word} (hv : v.getLsbD 0 = true) :
    s.writeCtrl v = State.startAction { s with ctrl := Ctrl.ofWord v } := by
  simp only [State.writeCtrl, h, hv]
  rfl

theorem State.writeCtrl_no_start {s : State} (h : s.busy = false) {v : Word} (hv : v.getLsbD 0 = false) :
    s.writeCtrl v = { s with ctrl := Ctrl.ofWord v } := by
  simp only [State.writeCtrl, h, hv]
  rfl

theorem bitWord_getLsbD (b : Bool) (i : Nat) : (bitWord b).getLsbD i = (decide (i = 0) && b) := by
  cases b <;> cases i <;> simp [bitWord]

/-- A CTRL write reads back as its OP, BPP, PALFMT, OUTFMT, A32 and IRQ_EN fields. -/
theorem packCtrl_ofWord (v : Word) :
    packCtrl (Ctrl.ofWord v).op (Ctrl.ofWord v).bpp (Ctrl.ofWord v).flags = v &&& 0x00013FF0 := by
  apply BitVec.eq_of_getLsbD_eq
  intro i hi
  simp only [packCtrl, Ctrl.ofWord, opOfWord, bppOfWord, flagsOfWord, BitVec.getLsbD_or, BitVec.getLsbD_and,
    BitVec.getLsbD_shiftLeft, BitVec.getLsbD_setWidth, BitVec.getLsbD_extractLsb', bitWord_getLsbD]
  interval_cases i <;> simp

theorem State.writeStatus_eq (s : State) (v : Word) :
    s.writeStatus v = { s with status := { s.status with done := s.status.done && !v.getLsbD 1 } } := by
  obtain ⟨c, ⟨d, e, r⟩, g, p, en, m, pl, t⟩ := s
  unfold State.writeStatus
  cases v.getLsbD 1 <;> simp [State.acknowledge]

/-! ### Register accesses -/

theorem State.writeReg_ctrl_offset (s : State) (v : Word) : s.writeReg 0 v = s.writeCtrl v := rfl

theorem State.writeReg_status_offset (s : State) (v : Word) : s.writeReg 4 v = s.writeStatus v := rfl

theorem State.writeReg_other {s : State} {offset : Nat} (h0 : offset ≠ 0) (h4 : offset ≠ 4) (v : Word) :
    s.writeReg offset v = if s.busy then s else { s with cfg := s.cfg.write offset v } := by
  unfold State.writeReg
  split <;> simp_all

/-- While BUSY a register write can only clear DONE. -/
theorem State.writeReg_of_busy {s : State} (h : s.busy = true) {offset : Nat} (h4 : offset ≠ 4) (v : Word) :
    s.writeReg offset v = s := by
  by_cases h0 : offset = 0
  · subst h0
    exact State.writeCtrl_of_busy h v
  · simp [State.writeReg_other h0 h4, h]

/-- What a register write keeps in any case. -/
theorem State.writeReg_frame (s : State) (offset : Nat) (v : Word) :
    (s.writeReg offset v).mem = s.mem ∧ (s.writeReg offset v).plat = s.plat ∧ (s.writeReg offset v).g3 = s.g3 := by
  unfold State.writeReg
  split
  · unfold State.writeCtrl
    split
    · exact ⟨rfl, rfl, rfl⟩
    · dsimp only
      split <;> exact ⟨rfl, rfl, rfl⟩
  · unfold State.writeStatus
    split <;> exact ⟨rfl, rfl, rfl⟩
  · split <;> exact ⟨rfl, rfl, rfl⟩

/-! ### Memory accesses -/

/-- The byte that a host write leaves: the one written, or a draw where the access is a breach after an operation's end. -/
def State.hostWritten (s : State) (a : Word) (v : Byte) : Byte :=
  if s.unseenOut a.toNat then Config.raceByte (s.plat.draws + 1) 0 a.toNat else v

/-- A host write changes one byte of memory, may record a race and may use up a draw; nothing else. -/
theorem State.hostWriteMem_eq (s : State) (a : Word) (v : Byte) :
    s.hostWriteMem a v = { s with
      mem := s.mem.write a.toNat (s.hostWritten a v)
      plat := { s.plat with
        races := if s.engineActive && (s.inIn a.toNat || s.inPal a.toNat || s.inOut a.toNat) then a :: s.plat.races
          else s.plat.races
        draws := if s.unseenOut a.toNat then s.plat.draws + 1 else s.plat.draws } } := by
  unfold State.hostWriteMem State.hostWritten
  dsimp only
  split <;> split <;> rfl

/-- A host write that breaches nothing writes its byte. -/
theorem State.hostWriteMem_of_free {s : State} {a : Word} (hu : s.unseenOut a.toNat = false)
    (hr : (s.engineActive && (s.inIn a.toNat || s.inPal a.toNat || s.inOut a.toNat)) = false) (v : Byte) :
    s.hostWriteMem a v = s.memWrite a.toNat v := by
  rw [State.hostWriteMem_eq, State.hostWritten]
  simp only [hu, hr]
  rfl

/-- A host read of memory changes nothing but the platform's data and draws. -/
theorem State.hostReadMem_eq (s : State) (a : Word) :
    s.hostReadMem a = { s with plat := { s.plat with
      readData :=
        if s.lentOut a.toNat then (Config.raceByte (s.plat.draws + 1) 0 a.toNat).setWidth 32
        else (s.memByte a.toNat).setWidth 32
      draws := if s.lentOut a.toNat then s.plat.draws + 1 else s.plat.draws } } := by
  unfold State.hostReadMem
  split <;> rfl

/-- A host read of a register changes nothing but the platform's data, and what of it is still lent. -/
theorem State.hostReadReg_eq (s : State) (offset : Nat) :
    s.hostReadReg offset = { s with plat := { s.plat with
      readData := if s.plat.inReset then 0 else s.regValue offset
      unseen := (s.hostReadReg offset).plat.unseen } } := by
  unfold State.hostReadReg State.observe
  generalize (if s.plat.inReset then (0 : Word) else s.regValue offset) = v
  dsimp only
  generalize (offset == 0x04 && (!v.getLsbD 0 || v.getLsbD 1)) = b
  cases b <;> rfl

/-- Looking at IRQ changes nothing but the platform's data, and ends what is lent when the line is up. -/
theorem State.hostReadIrq_eq (s : State) :
    s.hostReadIrq = { s with plat := { s.plat with
      readData := bitWord s.irq, unseen := if s.irq then [] else s.plat.unseen } } := by
  unfold State.hostReadIrq State.observe
  split <;> rfl

/-! ### A host step -/

/-- Everything a host step can do, when it answers a next state. -/
theorem hostStep_cases {inp : Input} {s t : State} (h : hostStep inp s = .next t) :
    (∃ offset size, inp = .readReg offset size ∧ regAccessOk offset size = true ∧
      t = s.hostReadReg offset.toNat) ∨
    (∃ offset size v, inp = .writeReg offset size v ∧ regAccessOk offset size = true ∧
      t = if s.plat.inReset then s else s.writeReg offset.toNat v) ∨
    (inp = .readIrq ∧ t = s.hostReadIrq) ∨
    (∃ a, inp = .readMem a ∧ t = s.hostReadMem a) ∨
    (∃ a v, inp = .writeMem a v ∧ t = s.hostWriteMem a v) ∨
    (inp = .reset true ∧ t = s.assertReset) ∨ (inp = .reset false ∧ t = s.deassertReset) ∨
    (inp = .engine ∧ t = s) := by
  unfold hostStep at h
  split at h
  · split at h
    · exact .inl ⟨_, _, rfl, ‹_›, by simpa using h.symm⟩
    · cases h
  · split at h
    · exact .inr (.inl ⟨_, _, _, rfl, ‹_›, by simpa using h.symm⟩)
    · cases h
  all_goals
    injection h with h
    subst h
    simp

end Sys2Proof.Machine
end

