-- ==== Sys2Proof/Laws/Command.lean ====
section
/-!
SUPPORT. What a command word can do in each phase of the engine, and the zero-fill, said once.
-/

namespace Sys2Proof.Machine

/-! ### Command words by phase -/

theorem runCommand_idle {s : State} (h : s.eng.phase = .idle) (w : Word) (first : State → State) :
    runCommand w first s = .next (s.writeCtrl w) := by
  simp [runCommand, h]

theorem runCommand_start {s : State} (h : s.eng.phase = .start) (w : Word) (first : State → State) :
    runCommand w first s = .next (first s) := by
  simp [runCommand, h]

theorem runCommand_running {s : State} (h : s.eng.phase ≠ .idle) (h' : s.eng.phase ≠ .start) (w : Word)
    (first : State → State) : runCommand w first s = .next s := by
  unfold runCommand
  split <;> simp_all

/-- Everything a command word can do: a CTRL write, the engine's first step, or nothing. It never stops. -/
theorem runCommand_cases {w : Word} {first : State → State} {s t : State} (h : runCommand w first s = .next t) :
    (s.eng.phase = .idle ∧ t = s.writeCtrl w) ∨ (s.eng.phase = .start ∧ t = first s) ∨ t = s := by
  unfold runCommand at h
  split at h <;> injection h with h <;> subst h <;> simp_all

/-- A legal command word's meaning in any phase. -/
theorem exec_legalCommand (op : Operation) (d : Depth) (f : CmdFlags) (s : State) :
    exec (legalCommand op d f) s = runCommand (commandWord op.code d.code f) (fun s => s.firstStep op d f) s := by
  cases op <;> cases d <;> rfl

/-- A legal command word in the engine's first step. -/
theorem exec_legalCommand_start {s : State} (h : s.eng.phase = .start) (op : Operation) (d : Depth) (f : CmdFlags) :
    exec (legalCommand op d f) s = .next (s.firstStep op d f) := by
  rw [exec_legalCommand, runCommand_start h]

/-- A command word whose OP is reserved raises UNSUPPORTED. -/
theorem exec_reservedOpCommand {op : BitVec 4} (h : Operation.ofCode op = none) (b : BitVec 3) (f : CmdFlags) (s : State) :
    exec (reservedOpCommand op b f) s = runCommand (commandWord op b f) (fun s => s.raise .unsupported) s := by
  obtain rfl | rfl | rfl | rfl | rfl | rfl | rfl | rfl | rfl :
      op = 5 ∨ op = 6 ∨ op = 7 ∨ op = 8 ∨ op = 11 ∨ op = 12 ∨ op = 13 ∨ op = 14 ∨ op = 15 := by
    revert op
    decide
  all_goals rfl

/-- A command word whose BPP is reserved raises UNSUPPORTED. -/
theorem exec_reservedBppCommand {b : BitVec 3} (h : Depth.ofCode b = none) (op : Operation) (f : CmdFlags) (s : State) :
    exec (reservedBppCommand op b f) s = runCommand (commandWord op.code b f) (fun s => s.raise .unsupported) s := by
  obtain rfl | rfl | rfl : b = 5 ∨ b = 6 ∨ b = 7 := by
    revert b
    decide
  all_goals rfl

/-- The latched command in the engine's first step: UNSUPPORTED, or the checks and the operation. -/
theorem exec_commandOf_start {s : State} (h : s.eng.phase = .start) (op : BitVec 4) (b : BitVec 3) (f : CmdFlags) :
    exec (commandOf op b f) s =
      match Operation.ofCode op, Depth.ofCode b with
      | some o, some d => .next (s.firstStep o d f)
      | _, _ => .next (s.raise .unsupported) := by
  unfold commandOf
  cases ho : Operation.ofCode op with
  | none => simp [exec_reservedOpCommand ho, runCommand_start h]
  | some o =>
    cases hd : Depth.ofCode b with
    | none => simp [exec_reservedBppCommand hd, runCommand_start h]
    | some d => simp [exec_legalCommand_start h]

/-! ### The first step and the zero-fill -/

theorem State.firstStep_fails {s : State} {op : Operation} {d : Depth} {f : CmdFlags} {c : ErrCode}
    (h : configError op d f s.cfg = some c) : s.firstStep op d f = s.raise c := by
  simp [State.firstStep, h]

theorem State.firstStep_enters {s : State} {op : Operation} {d : Depth} {f : CmdFlags}
    (h : configError op d f s.cfg = none) : s.firstStep op d f = s.enterOperation op d := by
  simp [State.firstStep, h]

/-- What follows passed checks: the zero-fill of a decoder that has a byte to fill, else the body; the hidden state is
initialised either way. -/
theorem State.enterOperation_cases (s : State) (op : Operation) (d : Depth) :
    (Operation.isDecoder op = true ∧ 0 < fillLength d s.cfg ∧
      s.enterOperation op d = (s.initialise op).withPhase (.fill 0)) ∨
    ((Operation.isDecoder op = false ∨ fillLength d s.cfg = 0) ∧
      s.enterOperation op d = (s.initialise op).withPhase .body) := by
  unfold State.enterOperation
  split
  · rename_i h
    simp only [Bool.and_eq_true, decide_eq_true_eq] at h
    exact .inl ⟨h.1, h.2, rfl⟩
  · rename_i h
    simp only [Bool.and_eq_true, decide_eq_true_eq, not_and, not_lt, Nat.le_zero] at h
    refine .inr ⟨?_, rfl⟩
    cases hd : Operation.isDecoder op
    · exact .inl rfl
    · exact .inr (h hd)

/-- Initialising twice is initialising once, whatever the phase. -/
theorem State.initialise_initialise (s : State) (op : Operation) (p : Phase) :
    ((s.initialise op).withPhase p).initialise op = (s.initialise op).withPhase p := by
  cases op <;> rfl

/-- One step of the zero-fill: byte k of OUT becomes 0, and the next byte or the body follows. -/
theorem zeroFillStep_eq {s : State} {op : Operation} {d : Depth} (ho : Operation.ofCode s.ctrl.op = some op)
    (hd : Depth.ofCode s.ctrl.bpp = some d) (hdec : Operation.isDecoder op = true)
    (hc : configError op d s.ctrl.flags s.cfg = none) {k : Word} (hk : k.toNat < fillLength d s.cfg) :
    zeroFillStep k s = .next ((s.outWrite k.toNat 0).withPhase
      (if k.toNat + 1 < fillLength d s.cfg then .fill (k + 1) else .body)) := by
  simp [zeroFillStep, ho, hd, hdec, hc, hk]

/-- Everything a step of the zero-fill can do. -/
theorem zeroFillStep_cases {k : Word} {s t : State} (h : zeroFillStep k s = .next t) :
    ∃ op d, Operation.ofCode s.ctrl.op = some op ∧ Depth.ofCode s.ctrl.bpp = some d ∧
      Operation.isDecoder op = true ∧ configError op d s.ctrl.flags s.cfg = none ∧ k.toNat < fillLength d s.cfg ∧
      t = (s.outWrite k.toNat 0).withPhase (if k.toNat + 1 < fillLength d s.cfg then .fill (k + 1) else .body) := by
  unfold zeroFillStep at h
  split at h
  · rename_i op d ho hd
    split at h
    · rename_i hc
      simp only [Bool.and_eq_true, beq_iff_eq, decide_eq_true_eq] at hc
      injection h with h
      exact ⟨op, d, ho, hd, hc.1.1, hc.1.2, hc.2, h.symm⟩
    · cases h
  · cases h

/-- The bytes that the zero-fill writes lie in OUT. -/
theorem fillLength_le (d : Depth) (g : Cfg) : fillLength d g ≤ g.outLen.toNat := Nat.min_le_left _ _

end Sys2Proof.Machine
end

