-- ==== Sys2Proof/Laws/RleDecode.lean ====
section
/-!
SUPPORT. What an RLE unit can do, said once: the pixels it writes at each depth, and its outcomes.
-/

namespace Sys2Proof.Machine

/-! ### The pixels of a unit as bytes of OUT -/

/-- The pixels of an RLE8 unit are consecutive bytes of OUT. -/
theorem putPixels_put8 (vs : List Byte) (s : State) (x y : Nat) :
    putPixels State.put8 s x y vs = s.outWriteList (y * stride .d8 s.cfg.width.toNat + x) vs := by
  induction vs generalizing s x with
  | nil => rfl
  | cons v vs ih =>
    rw [putPixels, ih, State.outWriteList, State.put8, State.outWrite_cfg, Nat.add_assoc]

/-- The three bytes of each pixel, in order. -/
def pixelBytes24 (vs : List (Byte × Byte × Byte)) : List Byte := vs.flatMap fun v => [v.1, v.2.1, v.2.2]

/-- The pixels of an RLE24 unit are consecutive bytes of OUT, three for each. -/
theorem putPixels_put24 (vs : List (Byte × Byte × Byte)) (s : State) (x y : Nat) :
    putPixels State.put24 s x y vs = s.outWriteList (y * stride .d24 s.cfg.width.toNat + 3 * x) (pixelBytes24 vs) := by
  induction vs generalizing s x with
  | nil => rfl
  | cons v vs ih =>
    rw [putPixels, ih]
    simp only [pixelBytes24, List.flatMap_cons, List.cons_append, List.nil_append, State.outWriteList, State.put24,
      State.outWrite_cfg]
    congr 1

@[simp] theorem pixelBytes24_length (vs : List (Byte × Byte × Byte)) : (pixelBytes24 vs).length = 3 * vs.length := by
  induction vs with
  | nil => rfl
  | cons v vs ih =>
    simp only [pixelBytes24, List.flatMap_cons, List.length_append, List.length_cons, List.length_nil] at ih ⊢
    omega

/-! ### The pixels of an RLE4 unit -/

@[simp] theorem State.put4_cfg (s : State) (x y : Nat) (v : Nibble) : (s.put4 x y v).cfg = s.cfg := rfl
@[simp] theorem State.put4_plat (s : State) (x y : Nat) (v : Nibble) : (s.put4 x y v).plat = s.plat := rfl

theorem putPixels_put4_frame (vs : List Nibble) (s : State) (x y : Nat) :
    (putPixels State.put4 s x y vs).ctrl = s.ctrl ∧ (putPixels State.put4 s x y vs).status = s.status ∧
    (putPixels State.put4 s x y vs).cfg = s.cfg ∧ (putPixels State.put4 s x y vs).pos = s.pos ∧
    (putPixels State.put4 s x y vs).eng = s.eng ∧ (putPixels State.put4 s x y vs).plat = s.plat := by
  induction vs generalizing s x with
  | nil => exact ⟨rfl, rfl, rfl, rfl, rfl, rfl⟩
  | cons v vs ih => exact ih (s.put4 x y v) (x + 1)

/-- The bytes that the pixels of an RLE4 unit can change. -/
theorem memByte_putPixels_put4 (vs : List Nibble) (s : State) (x y a : Nat)
    (h : ∀ i < vs.length, a ≠ s.cfg.outBase.toNat + (y * stride .d4 s.cfg.width.toNat + (x + i) / 2)) :
    (putPixels State.put4 s x y vs).memByte a = s.memByte a := by
  induction vs generalizing s x with
  | nil => rfl
  | cons v vs ih =>
    rw [putPixels, ih]
    · rw [State.put4, State.memByte_outWrite, if_neg]
      exact h 0 (by simp)
    · intro i hi
      have := h (i + 1) (by simpa using hi)
      rw [State.put4_cfg]
      rwa [show x + 1 + i = x + (i + 1) by omega]

theorem replaceNibble_high (old : Byte) {x : Nat} (h : x % 2 = 0) (v : Nibble) :
    (replaceNibble old x v).extractLsb' 4 4 = v ∧ (replaceNibble old x v).extractLsb' 0 4 = old.extractLsb' 0 4 := by
  simp only [replaceNibble, h, if_true]
  revert old v
  decide

theorem replaceNibble_low (old : Byte) {x : Nat} (h : x % 2 = 1) (v : Nibble) :
    (replaceNibble old x v).extractLsb' 0 4 = v ∧ (replaceNibble old x v).extractLsb' 4 4 = old.extractLsb' 4 4 := by
  have h' : ¬ x % 2 = 0 := by omega
  simp only [replaceNibble, h', if_false]
  revert old v
  decide

/-! ### The outcomes of a unit -/

/-- Everything an RLE unit can do. -/
theorem rleUnit_cases {v : Rle} {len : Nat} {effect : State → State} {s t : State}
    (h : rleUnit v len effect s = .next t) :
    s.running (Rle.operation v) (Rle.depth v) = true ∧
      ((s.cfg.inLen.toNat < s.eng.p.toNat + len ∧ t = s.raise .truncated) ∨
        (s.eng.p.toNat + len ≤ s.cfg.inLen.toNat ∧ t = effect s)) := by
  rw [rleUnit, State.within_eq_next] at h
  refine ⟨h.1, ?_⟩
  have h2 := h.2
  split at h2
  · exact .inl ⟨‹_›, h2.symm⟩
  · exact .inr ⟨by omega, h2.symm⟩

theorem rleUnit_truncated {v : Rle} {len : Nat} {effect : State → State} {s : State}
    (hr : s.running (Rle.operation v) (Rle.depth v) = true) (h : s.cfg.inLen.toNat < s.eng.p.toNat + len) :
    rleUnit v len effect s = .next (s.raise .truncated) := by
  rw [rleUnit, State.within_of_running hr, if_pos h]

theorem rleUnit_whole {v : Rle} {len : Nat} {effect : State → State} {s : State}
    (hr : s.running (Rle.operation v) (Rle.depth v) = true) (h : s.eng.p.toNat + len ≤ s.cfg.inLen.toNat) :
    rleUnit v len effect s = .next (effect s) := by
  rw [rleUnit, State.within_of_running hr, if_neg (by omega)]

/-- The write check's answers, in its order. -/
theorem State.checkWrite_cases (s : State) (d : Depth) (n : Nat) :
    (s.cfg.width.toNat < s.eng.x.toNat + n ∧ s.checkWrite d n = some .widthOverflow) ∨
    (s.eng.x.toNat + n ≤ s.cfg.width.toNat ∧
      (s.cfg.height.toNat ≤ s.eng.y.toNat ∨
        s.cfg.outLen.toNat ≤ s.eng.y.toNat * stride d s.cfg.width.toNat + ((s.eng.x.toNat + n) * d.bits - 1) / 8) ∧
      s.checkWrite d n = some .bufferOverflow) ∨
    (s.eng.x.toNat + n ≤ s.cfg.width.toNat ∧ s.eng.y.toNat < s.cfg.height.toNat ∧
      s.eng.y.toNat * stride d s.cfg.width.toNat + ((s.eng.x.toNat + n) * d.bits - 1) / 8 < s.cfg.outLen.toNat ∧
      s.checkWrite d n = none) := by
  unfold State.checkWrite
  dsimp only
  split
  · exact .inl ⟨‹_›, rfl⟩
  · split
    · exact .inr (.inl ⟨by omega, ‹_›, rfl⟩)
    · rename_i h
      rw [not_or, not_le, not_le] at h
      exact .inr (.inr ⟨by omega, h.1, h.2, rfl⟩)

/-- Everything a unit that writes n pixels can do. -/
theorem rlePixels_cases {v : Rle} {len n : Nat} {write : State → State} {s t : State}
    (h : rlePixels v len n write s = .next t) :
    s.running (Rle.operation v) (Rle.depth v) = true ∧
      ((∃ c, t = s.raise c) ∨
        (s.eng.p.toNat + len ≤ s.cfg.inLen.toNat ∧ s.checkWrite (Rle.depth v) n = none ∧
          t = (write s).moveTo (s.eng.p.toNat + len) (s.eng.x.toNat + n) s.eng.y.toNat)) := by
  obtain ⟨hr, h⟩ := rleUnit_cases h
  refine ⟨hr, ?_⟩
  obtain ⟨-, rfl⟩ | ⟨hl, h⟩ := h
  · exact .inl ⟨_, rfl⟩
  · split at h
    · exact .inl ⟨_, h⟩
    · exact .inr ⟨hl, ‹_›, h⟩

theorem rlePixels_writes {v : Rle} {len n : Nat} {write : State → State} {s : State}
    (hr : s.running (Rle.operation v) (Rle.depth v) = true) (hl : s.eng.p.toNat + len ≤ s.cfg.inLen.toNat)
    (hc : s.checkWrite (Rle.depth v) n = none) :
    rlePixels v len n write s =
      .next ((write s).moveTo (s.eng.p.toNat + len) (s.eng.x.toNat + n) s.eng.y.toNat) := by
  rw [rlePixels, rleUnit_whole hr hl]
  simp only [hc]

theorem rlePixels_fails {v : Rle} {len n : Nat} {write : State → State} {s : State} {c : ErrCode}
    (hr : s.running (Rle.operation v) (Rle.depth v) = true) (hl : s.eng.p.toNat + len ≤ s.cfg.inLen.toNat)
    (hc : s.checkWrite (Rle.depth v) n = some c) :
    rlePixels v len n write s = .next (s.raise c) := by
  rw [rlePixels, rleUnit_whole hr hl]
  simp only [hc]

end Sys2Proof.Machine
end

