-- ==== Sys2Proof/Laws/Group3.lean ====
section
/-!
SUPPORT. What a Group-3 code can do, said once: the pixels of a run, and its outcomes.
-/

namespace Sys2Proof.Machine

/-! ### The pixels of a run -/

@[simp] theorem State.putBit_cfg (s : State) (x y : Nat) (v : Bool) : (s.putBit x y v).cfg = s.cfg := rfl
@[simp] theorem State.putBit_plat (s : State) (x y : Nat) (v : Bool) : (s.putBit x y v).plat = s.plat := rfl

theorem State.putBitRun_frame (n : Nat) (s : State) (x y : Nat) (v : Bool) :
    (s.putBitRun x y v n).ctrl = s.ctrl ∧ (s.putBitRun x y v n).status = s.status ∧
    (s.putBitRun x y v n).cfg = s.cfg ∧ (s.putBitRun x y v n).pos = s.pos ∧
    (s.putBitRun x y v n).eng = s.eng ∧ (s.putBitRun x y v n).plat = s.plat := by
  induction n generalizing s x with
  | zero => exact ⟨rfl, rfl, rfl, rfl, rfl, rfl⟩
  | succ n ih => exact ih (s.putBit x y v) (x + 1)

/-- The bytes that a run can change. -/
theorem State.memByte_putBitRun (n : Nat) (s : State) (x y : Nat) (v : Bool) (a : Nat)
    (h : ∀ i < n, a ≠ s.cfg.outBase.toNat + (y * stride .d1 s.cfg.width.toNat + (x + i) / 8)) :
    (s.putBitRun x y v n).memByte a = s.memByte a := by
  induction n generalizing s x with
  | zero => rfl
  | succ n ih =>
    rw [State.putBitRun, ih]
    · rw [State.putBit, State.memByte_outWrite, if_neg]
      exact h 0 (by omega)
    · intro i hi
      have := h (i + 1) (by omega)
      rw [State.putBit_cfg]
      rwa [show x + 1 + i = x + (i + 1) by omega]

/-- A replaced bit is the only one that changes. -/
theorem replaceBit_getLsbD (old : Byte) (x : Nat) (v : Bool) (k : Nat) :
    (replaceBit old x v).getLsbD k = if k = 7 - x % 8 then v else old.getLsbD k := by
  have hx : x % 8 < 8 := Nat.mod_lt _ (by omega)
  by_cases hk : k < 8
  · simp only [replaceBit]
    generalize x % 8 = n at hx
    revert old v
    interval_cases n <;> interval_cases k <;> decide
  · rw [BitVec.getLsbD_of_ge _ _ (by omega), BitVec.getLsbD_of_ge _ _ (by omega), if_neg (by omega)]

/-! ### The outcomes of a code -/

/-- Everything a run code can do. -/
theorem runCode_cases {len : Nat} {effect : State → Except ErrCode State} {s t : State}
    (h : runCode len effect s = .next t) :
    s.running .decHuff .d1 = true ∧
      ((∃ c, t = s.raise c) ∨ (s.eng.started = true ∧ ∃ u, effect s = .ok u ∧ t = u.consumeCode len)) := by
  rw [runCode, State.within_eq_next] at h
  refine ⟨h.1, ?_⟩
  have h2 := h.2
  split at h2
  · split at h2
    · exact .inr ⟨‹_›, _, ‹_›, h2.symm⟩
    · exact .inl ⟨_, h2.symm⟩
  · exact .inl ⟨_, h2.symm⟩

theorem runCode_not_started {len : Nat} {effect : State → Except ErrCode State} {s : State}
    (hr : s.running .decHuff .d1 = true) (h : s.eng.started = false) :
    runCode len effect s = .next (s.raise .g3NoLeadingEol) := by
  rw [runCode, State.within_of_running hr, h]
  rfl

theorem runCode_ok {len : Nat} {effect : State → Except ErrCode State} {s u : State}
    (hr : s.running .decHuff .d1 = true) (h : s.eng.started = true) (hu : effect s = .ok u) :
    runCode len effect s = .next (u.consumeCode len) := by
  rw [runCode, State.within_of_running hr, if_pos h, hu]

theorem runCode_error {len : Nat} {effect : State → Except ErrCode State} {s : State} {c : ErrCode}
    (hr : s.running .decHuff .d1 = true) (h : s.eng.started = true) (hc : effect s = .error c) :
    runCode len effect s = .next (s.raise c) := by
  rw [runCode, State.within_of_running hr, if_pos h, hc]

/-- What a terminating code's effect gives when it gives one. -/
theorem terminateRun_ok {n : Nat} {s u : State} (h : terminateRun n s = .ok u) :
    s.eng.x.toNat + (s.eng.pend.toNat + n) ≤ s.cfg.width.toNat ∧
    (0 < s.eng.pend.toNat + n → s.eng.y.toNat < s.cfg.height.toNat ∧
      s.eng.y.toNat * stride .d1 s.cfg.width.toNat + (s.eng.x.toNat + (s.eng.pend.toNat + n) - 1) / 8 <
        s.cfg.outLen.toNat) ∧
    u = { s.putBitRun s.eng.x.toNat s.eng.y.toNat (Color.bit s.eng.color) (s.eng.pend.toNat + n) with
      eng := { s.eng with
        x := .ofNat 32 (s.eng.x.toNat + (s.eng.pend.toNat + n)), pend := 0, color := Color.other s.eng.color,
        sawCode := true, eolRun := 0 } } := by
  unfold terminateRun at h
  dsimp only at h
  split at h
  · cases h
  · split at h
    · cases h
    · rename_i h1 h2
      injection h with h
      refine ⟨by omega, fun h0 => ?_, ?_⟩
      · rw [not_and, not_or, not_le, not_le] at h2
        exact h2 h0
      · rw [← h, (State.putBitRun_frame _ s _ _ _).2.2.2.2.1]

/-- What a make-up code's effect gives when it gives one. -/
theorem makeUpRun_ok {n : Nat} {s u : State} (h : makeUpRun n s = .ok u) :
    s.eng.x.toNat + s.eng.pend.toNat + n ≤ s.cfg.width.toNat ∧
    u = { s with eng := { s.eng with
      pend := .ofNat 32 (s.eng.pend.toNat + n), sawCode := true, eolRun := 0 } } := by
  unfold makeUpRun at h
  split at h
  · cases h
  · injection h with h
    exact ⟨by omega, h.symm⟩

/-- Everything an EOL code can do. -/
theorem execEol_cases {fill : Nat} {s t : State} (h : execEol fill s = .next t) :
    s.running .decHuff .d1 = true ∧
      ((s.eng.pend ≠ 0 ∧ t = s.raise .g3MakeupAtEol) ∨
        (s.eng.pend = 0 ∧ (eolEngine s.eng).eolRun.toNat = 6 ∧
          t = (State.consumeBits { s with eng := eolEngine s.eng } (12 + fill)).finish) ∨
        (s.eng.pend = 0 ∧ (eolEngine s.eng).eolRun.toNat ≠ 6 ∧
          t = State.consumeCode { s with eng := eolEngine s.eng } (12 + fill))) := by
  rw [execEol, State.within_eq_next] at h
  refine ⟨h.1, ?_⟩
  have h2 := h.2
  split at h2
  · exact .inl ⟨‹_›, h2.symm⟩
  · rename_i hp
    rw [not_not] at hp
    dsimp only at h2
    split at h2
    · exact .inr (.inl ⟨hp, ‹_›, h2.symm⟩)
    · exact .inr (.inr ⟨hp, ‹_›, h2.symm⟩)

end Sys2Proof.Machine
end

