-- ==== Sys2Proof/Laws/RleEncode.lean ====
section
/-!
SUPPORT. What an emitted unit can do, said once, and the lengths that the encoders' choice counts.
-/

namespace Sys2Proof.Machine

/-! ### Emit -/

theorem State.emit_none {s : State} {u : List Byte} (h : s.cfg.outLen.toNat < s.eng.o.toNat + u.length) :
    s.emit u = none := by
  simp [State.emit, h]

/-- A unit that fits: its bytes at o, and o and OUT_POS behind it. -/
theorem State.emit_some {s : State} {u : List Byte} (h : s.eng.o.toNat + u.length ≤ s.cfg.outLen.toNat) :
    s.emit u = some { s.outWriteList s.eng.o.toNat u with
      eng := { s.eng with o := .ofNat 32 (s.eng.o.toNat + u.length) }
      pos := { s.pos with outPos := .ofNat 32 (s.eng.o.toNat + u.length) } } := by
  simp [State.emit, not_lt.mpr h]

/-- Everything Emit can do. -/
theorem State.emit_cases (s : State) (u : List Byte) :
    (s.cfg.outLen.toNat < s.eng.o.toNat + u.length ∧ s.emit u = none) ∨
    (s.eng.o.toNat + u.length ≤ s.cfg.outLen.toNat ∧
      s.emit u = some { s.outWriteList s.eng.o.toNat u with
        eng := { s.eng with o := .ofNat 32 (s.eng.o.toNat + u.length) }
        pos := { s.pos with outPos := .ofNat 32 (s.eng.o.toNat + u.length) } }) := by
  rcases Nat.lt_or_ge s.cfg.outLen.toNat (s.eng.o.toNat + u.length) with h | h
  · exact .inl ⟨h, State.emit_none h⟩
  · exact .inr ⟨h, State.emit_some h⟩

/-- An emitted unit takes effect exactly while an encoder runs. -/
theorem State.withinEncoder_eq_next {s e t : State} :
    s.withinEncoder e = .next t ↔ (s.running .encRle8 .d8 = true ∨ s.running .encRle4 .d4 = true) ∧ e = t := by
  unfold State.withinEncoder
  split <;> simp_all

theorem State.withinEncoder_of_running {s : State}
    (h : s.running .encRle8 .d8 = true ∨ s.running .encRle4 .d4 = true) (e : State) :
    s.withinEncoder e = .next e := by
  rw [State.withinEncoder_eq_next]
  exact ⟨h, rfl⟩

/-- Everything the end of a row can do. -/
theorem endRow_cases {unit : List Byte} {next : State → State} {s t : State} (h : endRow unit next s = .next t) :
    (s.running .encRle8 .d8 = true ∨ s.running .encRle4 .d4 = true) ∧
      ((s.eng.cnt ≠ s.cfg.width ∧ t = s.raise .encCountMismatch) ∨
        (s.eng.cnt = s.cfg.width ∧ s.emit unit = none ∧ t = s.raise .bufferOverflow) ∨
        (s.eng.cnt = s.cfg.width ∧ ∃ u, s.emit unit = some u ∧ t = next u)) := by
  rw [endRow, State.withinEncoder_eq_next] at h
  refine ⟨h.1, ?_⟩
  have h2 := h.2
  split at h2
  · exact .inl ⟨‹_›, h2.symm⟩
  · rename_i hc
    rw [not_not] at hc
    split at h2
    · exact .inr (.inl ⟨hc, ‹_›, h2.symm⟩)
    · exact .inr (.inr ⟨hc, _, ‹_›, h2.symm⟩)

theorem State.encodes4_of_rle4 {s : State} (h : s.running .encRle4 .d4 = true) : s.encodes4 = true := by
  simp [State.encodes4, (State.running_ctrl h).1]

theorem State.encodes4_of_rle8 {s : State} (h : s.running .encRle8 .d8 = true) : s.encodes4 = false := by
  simp only [State.encodes4, (State.running_ctrl h).1]
  decide

/-! ### Counting the row -/

theorem equalCount_le (item : Nat → Byte) (v : Byte) (fuel j : Nat) : equalCount item v j fuel ≤ fuel := by
  induction fuel generalizing j with
  | zero => exact le_rfl
  | succ n ih =>
    unfold equalCount
    split
    · exact Nat.succ_le_succ (ih _)
    · exact Nat.zero_le _

theorem equalCount_items {item : Nat → Byte} {v : Byte} {fuel j t : Nat} (h : t < equalCount item v j fuel) :
    item (j + t) = v := by
  induction fuel generalizing j t with
  | zero => exact absurd h (Nat.not_lt_zero _)
  | succ n ih =>
    unfold equalCount at h
    split at h
    · cases t with
      | zero => assumption
      | succ t =>
        have := ih (j := j + 1) (t := t) (by omega)
        rwa [show j + 1 + t = j + (t + 1) by omega] at this
    · exact absurd h (Nat.not_lt_zero _)

/-- Where the count stops before its bound, the next item differs. -/
theorem equalCount_stop {item : Nat → Byte} {v : Byte} {fuel j : Nat} (h : equalCount item v j fuel < fuel) :
    item (j + equalCount item v j fuel) ≠ v := by
  induction fuel generalizing j with
  | zero => exact absurd h (Nat.not_lt_zero _)
  | succ n ih =>
    by_cases hj : item j = v
    · have he : equalCount item v j (n + 1) = equalCount item v (j + 1) n + 1 := by
        simp [equalCount, hj]
      rw [he] at h ⊢
      have := ih (j := j + 1) (by omega)
      rwa [show j + 1 + equalCount item v (j + 1) n = j + (equalCount item v (j + 1) n + 1) by omega] at this
    · simp [equalCount, hj]

theorem literalCount_le (item : Nat → Nat → Byte) (cap minRun width fuel j : Nat) :
    literalCount item cap minRun width j fuel ≤ fuel := by
  induction fuel generalizing j with
  | zero => exact le_rfl
  | succ n ih =>
    unfold literalCount
    split
    · exact Nat.succ_le_succ (ih _)
    · exact Nat.zero_le _

/-- No position inside a literal stretch starts a run of the minimum length. -/
theorem literalCount_items {item : Nat → Nat → Byte} {cap minRun width fuel j t : Nat}
    (h : t < literalCount item cap minRun width j fuel) : runAt item cap width (j + t) < minRun := by
  induction fuel generalizing j t with
  | zero => exact absurd h (Nat.not_lt_zero _)
  | succ n ih =>
    unfold literalCount at h
    split at h
    · cases t with
      | zero => assumption
      | succ t =>
        have := ih (j := j + 1) (t := t) (by omega)
        rwa [show j + 1 + t = j + (t + 1) by omega] at this
    · exact absurd h (Nat.not_lt_zero _)

/-- Where a literal stretch stops before its bound, a run of the minimum length starts. -/
theorem literalCount_stop {item : Nat → Nat → Byte} {cap minRun width fuel j : Nat}
    (h : literalCount item cap minRun width j fuel < fuel) :
    minRun ≤ runAt item cap width (j + literalCount item cap minRun width j fuel) := by
  induction fuel generalizing j with
  | zero => exact absurd h (Nat.not_lt_zero _)
  | succ n ih =>
    by_cases hj : runAt item cap width j < minRun
    · have he : literalCount item cap minRun width j (n + 1) = literalCount item cap minRun width (j + 1) n + 1 := by
        simp [literalCount, hj]
      rw [he] at h ⊢
      have := ih (j := j + 1) (by omega)
      rwa [show j + 1 + literalCount item cap minRun width (j + 1) n =
        j + (literalCount item cap minRun width (j + 1) n + 1) by omega] at this
    · have he : literalCount item cap minRun width j (n + 1) = 0 := by simp [literalCount, hj]
      rw [he]
      exact not_lt.mp hj

/-- A run inside the row has at least one item. -/
theorem runAt_pos {item : Nat → Nat → Byte} {cap width j : Nat} (hc : 0 < cap) (hj : j < width) :
    1 ≤ runAt item cap width j := by
  obtain ⟨n, hn⟩ : ∃ n, min cap (width - j) = n + 1 := ⟨min cap (width - j) - 1, by omega⟩
  simp [runAt, hn, equalCount]

theorem runAt_le (item : Nat → Nat → Byte) (cap width j : Nat) : runAt item cap width j ≤ min cap (width - j) :=
  equalCount_le _ _ _ _

end Sys2Proof.Machine
end

