-- ==== Sys2Proof/Laws/Unpack.lean ====
section
/-!
SUPPORT. What a pixel step of the unpacker can do, said once.
-/

namespace Sys2Proof.Machine

theorem State.lookup_none {s : State} {d : Depth} {v : Nat} (h : palEntries d s.cfg ≤ v) : s.lookup d v = none := by
  simp [State.lookup, h]

theorem State.lookup_some {s : State} {d : Depth} {v : Nat} (h : v < palEntries d s.cfg) :
    s.lookup d v = some
      { b := s.palByte (v * palEntrySize s.ctrl.flags), g := s.palByte (v * palEntrySize s.ctrl.flags + 1),
        r := s.palByte (v * palEntrySize s.ctrl.flags + 2), a := 255 } := by
  simp [State.lookup, not_le.mpr h]

/-- Everything a pixel step can do. -/
theorem pixelStep_cases {d : Depth} {color : State → Option Rgba} {s t : State} (h : pixelStep d color s = .next t) :
    s.running .unpack d = true ∧
      ((color s = none ∧ t = s.raise .palIndexRange) ∨ ∃ c, color s = some c ∧ t = (s.storePixel c).nextPixel d) := by
  rw [pixelStep, State.within_eq_next] at h
  refine ⟨h.1, ?_⟩
  have h2 := h.2
  split at h2
  · exact .inl ⟨‹_›, h2.symm⟩
  · exact .inr ⟨_, ‹_›, h2.symm⟩

theorem pixelStep_some {d : Depth} {color : State → Option Rgba} {s : State} {c : Rgba}
    (hr : s.running .unpack d = true) (hc : color s = some c) :
    pixelStep d color s = .next ((s.storePixel c).nextPixel d) := by
  rw [pixelStep, State.within_of_running hr, hc]

theorem pixelStep_none {d : Depth} {color : State → Option Rgba} {s : State}
    (hr : s.running .unpack d = true) (hc : color s = none) :
    pixelStep d color s = .next (s.raise .palIndexRange) := by
  rw [pixelStep, State.within_of_running hr, hc]

/-- The bytes of an output pixel. -/
def Rgba.bytes (c : Rgba) (f : CmdFlags) : List Byte := [c.r, c.g, c.b] ++ if f.outfmt then [c.a] else []

@[simp] theorem Rgba.bytes_length (c : Rgba) (f : CmdFlags) : (c.bytes f).length = outPixelSize f := by
  unfold Rgba.bytes outPixelSize
  split <;> rfl

theorem State.storePixel_eq (s : State) (c : Rgba) :
    s.storePixel c = s.outWriteList
      ((s.eng.j.toNat * s.cfg.width.toNat + s.eng.x.toNat) * outPixelSize s.ctrl.flags) (c.bytes s.ctrl.flags) := rfl

/-- The row and column of the unpacker are inside the image. -/
theorem State.running_unpack {s : State} {d : Depth} (h : s.running .unpack d = true) :
    s.eng.x.toNat < s.cfg.width.toNat ∧ s.eng.y.toNat + s.eng.j.toNat + 1 = s.cfg.height.toNat ∧
    s.cfg.outLen.toNat = s.cfg.width.toNat * s.cfg.height.toNat * outPixelSize s.ctrl.flags := by
  have hc := State.running_cursor h
  simp only [State.cursorOk, Bool.and_eq_true, decide_eq_true_eq] at hc
  exact ⟨hc.1, hc.2, (configError_none (State.running_config h)).2.2.2.2.2.1 rfl⟩

/-- An output pixel lies inside OUT. -/
theorem State.running_pixel_in_out {s : State} {d : Depth} (h : s.running .unpack d = true) :
    (s.eng.j.toNat * s.cfg.width.toNat + s.eng.x.toNat) * outPixelSize s.ctrl.flags + outPixelSize s.ctrl.flags ≤
      s.cfg.outLen.toNat := by
  obtain ⟨hx, hy, ho⟩ := State.running_unpack h
  rw [ho, ← Nat.succ_mul]
  refine Nat.mul_le_mul_right _ ?_
  calc s.eng.j.toNat * s.cfg.width.toNat + s.eng.x.toNat + 1
      ≤ s.eng.j.toNat * s.cfg.width.toNat + s.cfg.width.toNat := by omega
    _ = s.cfg.width.toNat * (s.eng.j.toNat + 1) := by ring
    _ ≤ s.cfg.width.toNat * s.cfg.height.toNat := Nat.mul_le_mul_left _ (by omega)

end Sys2Proof.Machine
end

