-- ==== Sys2Proof/Laws/Step.lean ====
section
/-!
SUPPORT. What a step can do, said once: whose turn it is, and what the engine's turn interprets.
-/

namespace Sys2Proof.Machine

/-! ### Whose turn it is -/

theorem step_no_inputs {s : State} (h : s.plat.inputs = []) : step s = engineStep s := by
  simp [step, h]

theorem step_engine {s : State} {rest : List Input} (h : s.plat.inputs = .engine :: rest) :
    step s = engineStep (s.withInputs rest) := by
  simp [step, h]

theorem step_host {s : State} {inp : Input} {rest : List Input} (h : s.plat.inputs = inp :: rest)
    (hi : inp ≠ .engine) : step s = hostStep inp (s.withInputs rest) := by
  unfold step
  split <;> simp_all

/-- A step is a turn of the engine or an input of the platform. -/
theorem step_cases (s : State) :
    (s.plat.inputs = [] ∧ step s = engineStep s) ∨
    (∃ rest, s.plat.inputs = .engine :: rest ∧ step s = engineStep (s.withInputs rest)) ∨
    (∃ inp rest, s.plat.inputs = inp :: rest ∧ inp ≠ .engine ∧ step s = hostStep inp (s.withInputs rest)) := by
  cases h : s.plat.inputs with
  | nil => exact .inl ⟨rfl, step_no_inputs h⟩
  | cons inp rest =>
    by_cases hi : inp = .engine
    · subst hi
      exact .inr (.inl ⟨rest, rfl, step_engine h⟩)
    · exact .inr (.inr ⟨inp, rest, rfl, hi, step_host h hi⟩)

/-! ### The engine's turn -/

theorem engineStep_inReset {s : State} (h : s.plat.inReset = true) : engineStep s = .next s := by
  simp [engineStep, h]

theorem engineStep_idle {s : State} (h : s.eng.phase = .idle) : engineStep s = .next s := by
  simp [engineStep, h]

theorem engineStep_fill {s : State} (hr : s.plat.inReset = false) {k : Word} (h : s.eng.phase = .fill k) :
    engineStep s = zeroFillStep k s.drawn := by
  simp [engineStep, hr, h]

theorem engineStep_start {s : State} (hr : s.plat.inReset = false) (h : s.eng.phase = .start) :
    engineStep s = interpretStep s.drawn := by
  simp [engineStep, hr, h]

theorem engineStep_body {s : State} (hr : s.plat.inReset = false) (h : s.eng.phase = .body) :
    engineStep s = interpretStep s.drawn := by
  simp [engineStep, hr, h]

/-- Everything a turn of the engine can be. -/
theorem engineStep_cases (s : State) :
    engineStep s = .next s ∨
    (s.plat.inReset = false ∧ ∃ k, s.eng.phase = .fill k ∧ engineStep s = zeroFillStep k s.drawn) ∨
    (s.plat.inReset = false ∧ (s.eng.phase = .start ∨ s.eng.phase = .body) ∧
      engineStep s = interpretStep s.drawn) := by
  by_cases hr : s.plat.inReset = true
  · exact .inl (engineStep_inReset hr)
  · rw [Bool.not_eq_true] at hr
    cases h : s.eng.phase with
    | idle => exact .inl (engineStep_idle h)
    | start => exact .inr (.inr ⟨hr, .inl rfl, engineStep_start hr h⟩)
    | fill k => exact .inr (.inl ⟨hr, k, rfl, engineStep_fill hr h⟩)
    | body => exact .inr (.inr ⟨hr, .inr rfl, engineStep_body hr h⟩)

/-- Everything an interpreting step can do, when it answers a next state. -/
theorem interpretStep_cases {s t : State} (h : interpretStep s = .next t) :
    (∃ i, s.fetch = .run i ∧ exec i s = .next t) ∨ (s.fetch = .endOfInput ∧ t = s.endOfInput) ∨
    (∃ c, s.fetch = .failed c ∧ t = s.raise c) := by
  unfold interpretStep at h
  split at h
  · exact .inl ⟨_, ‹_›, h⟩
  · injection h with h
    exact .inr (.inl ⟨‹_›, h.symm⟩)
  · injection h with h
    exact .inr (.inr ⟨_, ‹_›, h.symm⟩)
  · cases h

theorem interpretStep_run {s : State} {i : Instr} (h : s.fetch = .run i) : interpretStep s = exec i s := by
  simp [interpretStep, h]

/-! ### The fetch -/

theorem State.fetch_start {s : State} (h : s.eng.phase = .start) :
    s.fetch = .run (commandOf s.ctrl.op s.ctrl.bpp s.ctrl.flags) := by
  simp [State.fetch, h, State.latchedCommand]

theorem State.fetch_running {s : State} {op : Operation} {d : Depth} (h : s.running op d = true) :
    s.fetch = s.fetchBody op d := by
  simp [State.fetch, State.running_phase h, (State.running_ctrl h).1, (State.running_ctrl h).2]

theorem State.fetch_rle {s : State} {v : Rle} (h : s.running (Rle.operation v) (Rle.depth v) = true) :
    s.fetch = s.fetchUnit v := by
  rw [State.fetch_running h]
  unfold State.fetchBody
  rw [if_pos h]
  cases v <;> rfl

theorem State.fetch_huff {s : State} (h : s.running .decHuff .d1 = true) : s.fetch = s.fetchCode := by
  rw [State.fetch_running h, State.fetchBody, if_pos h]

theorem State.fetch_unpack {s : State} {d : Depth} (h : s.running .unpack d = true) : s.fetch = s.fetchPixel d := by
  rw [State.fetch_running h, State.fetchBody, if_pos h]

theorem State.fetch_enc {s : State} (h : s.running .encRle8 .d8 = true ∨ s.running .encRle4 .d4 = true) :
    s.fetch = .run s.nextUnit := by
  rcases h with h | h <;> rw [State.fetch_running h, State.fetchBody, if_pos h]

@[simp] theorem State.running_drawn (s : State) (op : Operation) (d : Depth) :
    s.drawn.running op d = s.running op d := rfl

@[simp] theorem State.running_withInputs (s : State) (l : List Input) (op : Operation) (d : Depth) :
    (s.withInputs l).running op d = s.running op d := rfl

end Sys2Proof.Machine
end

