-- ==== Sys2Proof/Laws/Decode.lean ====
section
/-!
SUPPORT. The decoder and the encoder on the rows of the Group-3 tables, and the meanings of the rows.
-/

namespace Sys2Proof

@[simp] theorem bitsMsb_length (n v : Nat) : (bitsMsb n v).length = n := by
  induction n with
  | zero => rfl
  | succ n ih => simp [bitsMsb, ih]

/-! ### The rows of a table -/

set_option maxRecDepth 20000 in
/-- The default table is free of prefixes (spec/42_g3_code_tables.md R250). -/
theorem t4Table_wf : t4Table.wf = true := by
  decide

set_option maxRecDepth 20000 in
/-- Every code of the default table has 2 bits or more (R250). -/
theorem t4Table_len : ∀ c, ∀ r ∈ t4Table.rows c, 2 ≤ r.len := by
  intro c
  cases c <;> decide

/-- The default rows of every kind of code. -/
def kindRows : List CodeRow := whiteTerminating ++ whiteMakeUp ++ blackTerminating ++ blackMakeUp ++ sharedMakeUp

set_option maxRecDepth 20000 in
/-- No two default rows stand for one instruction. -/
theorem kindRows_nodup : (kindRows.map fun r => r.instr.ctorIdx).Nodup := by
  decide

set_option maxRecDepth 20000 in
/-- No row stands for EOL. -/
theorem kindRows_ne_eol : ∀ r ∈ kindRows, r.instr.ctorIdx ≠ (Instr.eol 0).ctorIdx := by
  decide

/-- A table's rows of every kind of code. -/
def G3Table.kinds (tbl : G3Table) : List CodeRow :=
  withCodes whiteTerminating tbl.wt ++ withCodes whiteMakeUp tbl.wm ++ withCodes blackTerminating tbl.bt ++
    withCodes blackMakeUp tbl.bm ++ withCodes sharedMakeUp tbl.xm

/-- A row of a table is a default row with the table's code word. -/
theorem mem_withCodes {rows : List CodeRow} {codes : List Code} {r : CodeRow} (h : r ∈ withCodes rows codes) :
    ∃ r0 ∈ rows, ∃ c ∈ codes, r = { r0 with len := c.len, val := c.val } := by
  obtain ⟨n, hn, rfl⟩ := List.getElem_of_mem h
  simp only [withCodes, List.length_zipWith] at hn
  exact ⟨rows[n]'(by omega), List.getElem_mem _, codes[n]'(by omega), List.getElem_mem _, by simp [withCodes]⟩

/-- A table's rows stand for default rows' instructions, in their order. -/
theorem withCodes_sublist (rows : List CodeRow) (codes : List Code) :
    ((withCodes rows codes).map fun r => r.instr.ctorIdx).Sublist (rows.map fun r => r.instr.ctorIdx) := by
  induction rows generalizing codes with
  | nil => simp [withCodes]
  | cons r rows ih =>
    cases codes with
    | nil => simp [withCodes]
    | cons c codes => exact (ih codes).cons_cons _

theorem G3Table.kinds_sublist (tbl : G3Table) :
    (tbl.kinds.map fun r => r.instr.ctorIdx).Sublist (kindRows.map fun r => r.instr.ctorIdx) := by
  simp only [G3Table.kinds, kindRows, List.map_append]
  exact ((((withCodes_sublist _ _).append (withCodes_sublist _ _)).append (withCodes_sublist _ _)).append
    (withCodes_sublist _ _)).append (withCodes_sublist _ _)

theorem G3Table.mem_kinds {tbl : G3Table} {c : Color} {r : CodeRow} (h : r ∈ tbl.rows c) : r ∈ tbl.kinds := by
  cases c <;>
    simp only [G3Table.rows, G3Table.terminating, G3Table.makeUp, List.mem_append, G3Table.kinds] at h ⊢ <;> tauto

/-- In a table an instruction has one row. -/
theorem G3Table.row_unique {tbl : G3Table} {r r' : CodeRow} (h : r ∈ tbl.kinds) (h' : r' ∈ tbl.kinds)
    (hi : r.instr = r'.instr) : r = r' :=
  List.inj_on_of_nodup_map (tbl.kinds_sublist.nodup kindRows_nodup) h h' (congrArg Instr.ctorIdx hi)

/-- The row of an instruction of a table is found. -/
theorem codeRow?_row {tbl : G3Table} {c : Color} {r : CodeRow} (h : r ∈ tbl.rows c) :
    codeRow? tbl r.instr = some r := by
  have hm : r ∈ tbl.rows .white ++ tbl.rows .black := by
    cases c
    · exact List.mem_append_left _ h
    · exact List.mem_append_right _ h
  cases hf : codeRow? tbl r.instr with
  | none =>
    have := List.find?_eq_none.mp hf r hm
    simp at this
  | some r' =>
    have hi : r'.instr = r.instr := by simpa using List.find?_some hf
    have hk : r' ∈ tbl.kinds := by
      rcases List.mem_append.mp (List.mem_of_find?_eq_some hf) with h' | h' <;> exact G3Table.mem_kinds h'
    rw [G3Table.row_unique hk (G3Table.mem_kinds h) hi]

/-- No row of a table stands for EOL. -/
theorem G3Table.row_ne_eol {tbl : G3Table} {c : Color} {r : CodeRow} (h : r ∈ tbl.rows c) (k : Nat) :
    r.instr ≠ .eol k := by
  intro hk
  have hm := tbl.kinds_sublist.subset (List.mem_map_of_mem (G3Table.mem_kinds h))
  obtain ⟨r0, hr0, he⟩ := List.mem_map.mp hm
  refine kindRows_ne_eol r0 hr0 (he.trans ?_)
  rw [hk]
  rfl

/-- Each row of a table is encoded as the table writes it. -/
theorem encodeCode_row {tbl : G3Table} {c : Color} {r : CodeRow} (h : r ∈ tbl.rows c) :
    encodeCode tbl r.instr = bitsMsb r.len r.val := by
  unfold encodeCode
  split
  · exact absurd ‹_› (G3Table.row_ne_eol h _)
  · simp [codeRow?_row h]

theorem codeLength_row {tbl : G3Table} {c : Color} {r : CodeRow} (h : r ∈ tbl.rows c) :
    tbl.codeLength r.instr = r.len := by
  rw [G3Table.codeLength, encodeCode_row h, bitsMsb_length]

end Sys2Proof

namespace Sys2Proof.Machine

/-! ### The meanings of the rows -/

/-- A terminating row's meaning is the terminating code of its run and of the table's length. -/
theorem exec_whiteTerminating {r : CodeRow} (h : r ∈ whiteTerminating) (s : State) :
    exec r.instr s = terminatingCode r.run (s.g3.codeLength r.instr) s := by
  revert r
  simp only [whiteTerminating, List.cons_append, List.nil_append, List.forall_mem_cons, List.not_mem_nil, false_imp_iff,
    implies_true, and_true]
  repeat' constructor

theorem exec_blackTerminating {r : CodeRow} (h : r ∈ blackTerminating) (s : State) :
    exec r.instr s = terminatingCode r.run (s.g3.codeLength r.instr) s := by
  revert r
  simp only [blackTerminating, List.cons_append, List.nil_append, List.forall_mem_cons, List.not_mem_nil, false_imp_iff,
    implies_true, and_true]
  repeat' constructor

/-- A make-up row's meaning is the make-up code of its run and of the table's length. -/
theorem exec_whiteMakeUp {r : CodeRow} (h : r ∈ whiteMakeUp) (s : State) :
    exec r.instr s = makeUpCode r.run (s.g3.codeLength r.instr) s := by
  revert r
  simp only [whiteMakeUp, List.forall_mem_cons, List.not_mem_nil, false_imp_iff, implies_true, and_true]
  repeat' constructor

theorem exec_blackMakeUp {r : CodeRow} (h : r ∈ blackMakeUp) (s : State) :
    exec r.instr s = makeUpCode r.run (s.g3.codeLength r.instr) s := by
  revert r
  simp only [blackMakeUp, List.forall_mem_cons, List.not_mem_nil, false_imp_iff, implies_true, and_true]
  repeat' constructor

theorem exec_sharedMakeUp {r : CodeRow} (h : r ∈ sharedMakeUp) (s : State) :
    exec r.instr s = makeUpCode r.run (s.g3.codeLength r.instr) s := by
  revert r
  simp only [sharedMakeUp, List.forall_mem_cons, List.not_mem_nil, false_imp_iff, implies_true, and_true]
  repeat' constructor

/-- What a terminating row of the block's table does. -/
theorem exec_terminating {c : Color} {r : CodeRow} {s : State} (h : r ∈ s.g3.terminating c) :
    exec r.instr s = terminatingCode r.run r.len s := by
  have hl := codeLength_row (List.mem_append_left (s.g3.makeUp c) h)
  cases c <;> obtain ⟨r0, h0, a, -, rfl⟩ := mem_withCodes h
  · exact (exec_whiteTerminating h0 s).trans (congrArg (terminatingCode r0.run · s) hl)
  · exact (exec_blackTerminating h0 s).trans (congrArg (terminatingCode r0.run · s) hl)

/-- What a make-up row of the block's table does. -/
theorem exec_makeUp {c : Color} {r : CodeRow} {s : State} (h : r ∈ s.g3.makeUp c) :
    exec r.instr s = makeUpCode r.run r.len s := by
  have hl := codeLength_row (List.mem_append_right (s.g3.terminating c) h)
  cases c <;> rcases List.mem_append.mp h with h | h <;> obtain ⟨r0, h0, a, -, rfl⟩ := mem_withCodes h
  · exact (exec_whiteMakeUp h0 s).trans (congrArg (makeUpCode r0.run · s) hl)
  · exact (exec_sharedMakeUp h0 s).trans (congrArg (makeUpCode r0.run · s) hl)
  · exact (exec_blackMakeUp h0 s).trans (congrArg (makeUpCode r0.run · s) hl)
  · exact (exec_sharedMakeUp h0 s).trans (congrArg (makeUpCode r0.run · s) hl)

end Sys2Proof.Machine
end

