-- ==== Sys2Proof/Laws/PerInstr.lean ====
section
/-!
SUPPORT. Statements about every instruction, one lemma for each constructor of `Instr`: the length of its encoding
(spec/30_encoding.md R110, R121; spec/42_g3_code_tables.md R250, R256).
-/

namespace Sys2Proof.Laws.WordLength

/-- The encoding has a length that its format allows: a command is one 32-bit word; an RLE unit or an emitted unit has an
even number of bytes, 2 at least; a packed pixel takes 1, 3 or 4 bytes; a Group-3 code of the default table takes 2 to 13 bits, or is a string
of at least 11 zeros and a 1. -/
def Statement (i : Instr) : Prop :=
  i.wellFormed = true →
    match i.context, encode t4Table i with
    | .command, .command _ => True
    | .rle _, .bytes bs | .emit8, .bytes bs | .emit4, .bytes bs => bs.length % 2 = 0 ∧ 2 ≤ bs.length
    | .pix d, .bytes bs => bs.length = (d.bits + 7) / 8
    | .g3 _, .code bits => (2 ≤ bits.length ∧ bits.length ≤ 13) ∨ ∃ k, 11 ≤ k ∧ bits = List.replicate k false ++ [true]
    | _, _ => False

theorem absBytes_even (n : Byte) (data : List Byte) :
    (absBytes n data).length % 2 = 0 ∧ 2 ≤ (absBytes n data).length := by
  simp only [absBytes, padBytes, List.length_cons, List.length_append, List.length_replicate, List.cons_append]
  omega

theorem unpack1 (f : CmdFlags) : Statement (.unpack1 f) := fun _ => trivial
theorem unpack4 (f : CmdFlags) : Statement (.unpack4 f) := fun _ => trivial
theorem unpack8 (f : CmdFlags) : Statement (.unpack8 f) := fun _ => trivial
theorem unpack24 (f : CmdFlags) : Statement (.unpack24 f) := fun _ => trivial
theorem unpack32 (f : CmdFlags) : Statement (.unpack32 f) := fun _ => trivial
theorem decRle8 (depth : Depth) (f : CmdFlags) : Statement (.decRle8 depth f) := fun _ => trivial
theorem decRle4 (depth : Depth) (f : CmdFlags) : Statement (.decRle4 depth f) := fun _ => trivial
theorem decHuff (depth : Depth) (f : CmdFlags) : Statement (.decHuff depth f) := fun _ => trivial
theorem decRle24 (depth : Depth) (f : CmdFlags) : Statement (.decRle24 depth f) := fun _ => trivial
theorem encRle8 (depth : Depth) (f : CmdFlags) : Statement (.encRle8 depth f) := fun _ => trivial
theorem encRle4 (depth : Depth) (f : CmdFlags) : Statement (.encRle4 depth f) := fun _ => trivial
theorem reservedOp5 (bpp : BitVec 3) (f : CmdFlags) : Statement (.reservedOp5 bpp f) := fun _ => trivial
theorem reservedOp6 (bpp : BitVec 3) (f : CmdFlags) : Statement (.reservedOp6 bpp f) := fun _ => trivial
theorem reservedOp7 (bpp : BitVec 3) (f : CmdFlags) : Statement (.reservedOp7 bpp f) := fun _ => trivial
theorem reservedOp8 (bpp : BitVec 3) (f : CmdFlags) : Statement (.reservedOp8 bpp f) := fun _ => trivial
theorem reservedOpB (bpp : BitVec 3) (f : CmdFlags) : Statement (.reservedOpB bpp f) := fun _ => trivial
theorem reservedOpC (bpp : BitVec 3) (f : CmdFlags) : Statement (.reservedOpC bpp f) := fun _ => trivial
theorem reservedOpD (bpp : BitVec 3) (f : CmdFlags) : Statement (.reservedOpD bpp f) := fun _ => trivial
theorem reservedOpE (bpp : BitVec 3) (f : CmdFlags) : Statement (.reservedOpE bpp f) := fun _ => trivial
theorem reservedOpF (bpp : BitVec 3) (f : CmdFlags) : Statement (.reservedOpF bpp f) := fun _ => trivial
theorem reservedBpp5 (op : Operation) (f : CmdFlags) : Statement (.reservedBpp5 op f) := fun _ => trivial
theorem reservedBpp6 (op : Operation) (f : CmdFlags) : Statement (.reservedBpp6 op f) := fun _ => trivial
theorem reservedBpp7 (op : Operation) (f : CmdFlags) : Statement (.reservedBpp7 op f) := fun _ => trivial
theorem rle8Run (c : Byte) (v : Byte) : Statement (.rle8Run c v) := fun _ => ⟨by simp, by simp⟩
theorem rle8Eol : Statement .rle8Eol := fun _ => ⟨by simp, by simp⟩
theorem rle8Eob : Statement .rle8Eob := fun _ => ⟨by simp, by simp⟩
theorem rle8Delta (dx : Byte) (dy : Byte) : Statement (.rle8Delta dx dy) := fun _ => ⟨by simp, by simp⟩
theorem rle8Abs (n : Byte) (data : List Byte) : Statement (.rle8Abs n data) := fun _ => absBytes_even n data
theorem rle4Run (c : Byte) (h : Nibble) (l : Nibble) : Statement (.rle4Run c h l) := fun _ => ⟨by simp, by simp⟩
theorem rle4Eol : Statement .rle4Eol := fun _ => ⟨by simp, by simp⟩
theorem rle4Eob : Statement .rle4Eob := fun _ => ⟨by simp, by simp⟩
theorem rle4Delta (dx : Byte) (dy : Byte) : Statement (.rle4Delta dx dy) := fun _ => ⟨by simp, by simp⟩
theorem rle4Abs (n : Byte) (data : List Byte) : Statement (.rle4Abs n data) := fun _ => absBytes_even n data
theorem rle24Run (c : Byte) (b0 : Byte) (b1 : Byte) (b2 : Byte) : Statement (.rle24Run c b0 b1 b2) := fun _ => ⟨by simp, by simp⟩
theorem rle24Eol : Statement .rle24Eol := fun _ => ⟨by simp, by simp⟩
theorem rle24Eob : Statement .rle24Eob := fun _ => ⟨by simp, by simp⟩
theorem rle24Delta (dx : Byte) (dy : Byte) : Statement (.rle24Delta dx dy) := fun _ => ⟨by simp, by simp⟩
theorem rle24Abs (n : Byte) (data : List Byte) : Statement (.rle24Abs n data) := fun _ => absBytes_even n data
theorem encRun (c : Byte) (v : Byte) : Statement (.encRun c v) := fun _ => ⟨by simp, by simp⟩
theorem encAbs (n : Byte) (data : List Byte) : Statement (.encAbs n data) := by
  intro _
  have hc : (Instr.encAbs n data).context = if data.length = n.toNat then .emit8 else .emit4 := rfl
  have he : encode t4Table (.encAbs n data) = .bytes (absBytes n data) := rfl
  rw [hc, he]
  by_cases h : data.length = n.toNat
  · rw [if_pos h]
    exact absBytes_even n data
  · rw [if_neg h]
    exact absBytes_even n data
theorem encShort (c : Byte) (v : Byte) (w : Option Byte) : Statement (.encShort c v w) := by
  intro _
  cases w <;> exact ⟨by simp, by simp⟩
theorem encEol : Statement .encEol := fun _ => ⟨by simp, by simp⟩
theorem encEob : Statement .encEob := fun _ => ⟨by simp, by simp⟩
theorem wt0 : Statement .wt0 := fun _ => .inl (by decide)
theorem wt1 : Statement .wt1 := fun _ => .inl (by decide)
theorem wt2 : Statement .wt2 := fun _ => .inl (by decide)
theorem wt3 : Statement .wt3 := fun _ => .inl (by decide)
theorem wt4 : Statement .wt4 := fun _ => .inl (by decide)
theorem wt5 : Statement .wt5 := fun _ => .inl (by decide)
theorem wt6 : Statement .wt6 := fun _ => .inl (by decide)
theorem wt7 : Statement .wt7 := fun _ => .inl (by decide)
theorem wt8 : Statement .wt8 := fun _ => .inl (by decide)
theorem wt9 : Statement .wt9 := fun _ => .inl (by decide)
theorem wt10 : Statement .wt10 := fun _ => .inl (by decide)
theorem wt11 : Statement .wt11 := fun _ => .inl (by decide)
theorem wt12 : Statement .wt12 := fun _ => .inl (by decide)
theorem wt13 : Statement .wt13 := fun _ => .inl (by decide)
theorem wt14 : Statement .wt14 := fun _ => .inl (by decide)
theorem wt15 : Statement .wt15 := fun _ => .inl (by decide)
theorem wt16 : Statement .wt16 := fun _ => .inl (by decide)
theorem wt17 : Statement .wt17 := fun _ => .inl (by decide)
theorem wt18 : Statement .wt18 := fun _ => .inl (by decide)
theorem wt19 : Statement .wt19 := fun _ => .inl (by decide)
theorem wt20 : Statement .wt20 := fun _ => .inl (by decide)
theorem wt21 : Statement .wt21 := fun _ => .inl (by decide)
theorem wt22 : Statement .wt22 := fun _ => .inl (by decide)
theorem wt23 : Statement .wt23 := fun _ => .inl (by decide)
theorem wt24 : Statement .wt24 := fun _ => .inl (by decide)
theorem wt25 : Statement .wt25 := fun _ => .inl (by decide)
theorem wt26 : Statement .wt26 := fun _ => .inl (by decide)
theorem wt27 : Statement .wt27 := fun _ => .inl (by decide)
theorem wt28 : Statement .wt28 := fun _ => .inl (by decide)
theorem wt29 : Statement .wt29 := fun _ => .inl (by decide)
theorem wt30 : Statement .wt30 := fun _ => .inl (by decide)
theorem wt31 : Statement .wt31 := fun _ => .inl (by decide)
theorem wt32 : Statement .wt32 := fun _ => .inl (by decide)
theorem wt33 : Statement .wt33 := fun _ => .inl (by decide)
theorem wt34 : Statement .wt34 := fun _ => .inl (by decide)
theorem wt35 : Statement .wt35 := fun _ => .inl (by decide)
theorem wt36 : Statement .wt36 := fun _ => .inl (by decide)
theorem wt37 : Statement .wt37 := fun _ => .inl (by decide)
theorem wt38 : Statement .wt38 := fun _ => .inl (by decide)
theorem wt39 : Statement .wt39 := fun _ => .inl (by decide)
theorem wt40 : Statement .wt40 := fun _ => .inl (by decide)
theorem wt41 : Statement .wt41 := fun _ => .inl (by decide)
theorem wt42 : Statement .wt42 := fun _ => .inl (by decide)
theorem wt43 : Statement .wt43 := fun _ => .inl (by decide)
theorem wt44 : Statement .wt44 := fun _ => .inl (by decide)
theorem wt45 : Statement .wt45 := fun _ => .inl (by decide)
theorem wt46 : Statement .wt46 := fun _ => .inl (by decide)
theorem wt47 : Statement .wt47 := fun _ => .inl (by decide)
theorem wt48 : Statement .wt48 := fun _ => .inl (by decide)
theorem wt49 : Statement .wt49 := fun _ => .inl (by decide)
theorem wt50 : Statement .wt50 := fun _ => .inl (by decide)
theorem wt51 : Statement .wt51 := fun _ => .inl (by decide)
theorem wt52 : Statement .wt52 := fun _ => .inl (by decide)
theorem wt53 : Statement .wt53 := fun _ => .inl (by decide)
theorem wt54 : Statement .wt54 := fun _ => .inl (by decide)
theorem wt55 : Statement .wt55 := fun _ => .inl (by decide)
theorem wt56 : Statement .wt56 := fun _ => .inl (by decide)
theorem wt57 : Statement .wt57 := fun _ => .inl (by decide)
theorem wt58 : Statement .wt58 := fun _ => .inl (by decide)
theorem wt59 : Statement .wt59 := fun _ => .inl (by decide)
theorem wt60 : Statement .wt60 := fun _ => .inl (by decide)
theorem wt61 : Statement .wt61 := fun _ => .inl (by decide)
theorem wt62 : Statement .wt62 := fun _ => .inl (by decide)
theorem wt63 : Statement .wt63 := fun _ => .inl (by decide)
theorem wm64 : Statement .wm64 := fun _ => .inl (by decide)
theorem wm128 : Statement .wm128 := fun _ => .inl (by decide)
theorem wm192 : Statement .wm192 := fun _ => .inl (by decide)
theorem wm256 : Statement .wm256 := fun _ => .inl (by decide)
theorem wm320 : Statement .wm320 := fun _ => .inl (by decide)
theorem wm384 : Statement .wm384 := fun _ => .inl (by decide)
theorem wm448 : Statement .wm448 := fun _ => .inl (by decide)
theorem wm512 : Statement .wm512 := fun _ => .inl (by decide)
theorem wm576 : Statement .wm576 := fun _ => .inl (by decide)
theorem wm640 : Statement .wm640 := fun _ => .inl (by decide)
theorem wm704 : Statement .wm704 := fun _ => .inl (by decide)
theorem wm768 : Statement .wm768 := fun _ => .inl (by decide)
theorem wm832 : Statement .wm832 := fun _ => .inl (by decide)
theorem wm896 : Statement .wm896 := fun _ => .inl (by decide)
theorem wm960 : Statement .wm960 := fun _ => .inl (by decide)
theorem wm1024 : Statement .wm1024 := fun _ => .inl (by decide)
theorem wm1088 : Statement .wm1088 := fun _ => .inl (by decide)
theorem wm1152 : Statement .wm1152 := fun _ => .inl (by decide)
theorem wm1216 : Statement .wm1216 := fun _ => .inl (by decide)
theorem wm1280 : Statement .wm1280 := fun _ => .inl (by decide)
theorem wm1344 : Statement .wm1344 := fun _ => .inl (by decide)
theorem wm1408 : Statement .wm1408 := fun _ => .inl (by decide)
theorem wm1472 : Statement .wm1472 := fun _ => .inl (by decide)
theorem wm1536 : Statement .wm1536 := fun _ => .inl (by decide)
theorem wm1600 : Statement .wm1600 := fun _ => .inl (by decide)
theorem wm1664 : Statement .wm1664 := fun _ => .inl (by decide)
theorem wm1728 : Statement .wm1728 := fun _ => .inl (by decide)
theorem bt0 : Statement .bt0 := fun _ => .inl (by decide)
theorem bt1 : Statement .bt1 := fun _ => .inl (by decide)
theorem bt2 : Statement .bt2 := fun _ => .inl (by decide)
theorem bt3 : Statement .bt3 := fun _ => .inl (by decide)
theorem bt4 : Statement .bt4 := fun _ => .inl (by decide)
theorem bt5 : Statement .bt5 := fun _ => .inl (by decide)
theorem bt6 : Statement .bt6 := fun _ => .inl (by decide)
theorem bt7 : Statement .bt7 := fun _ => .inl (by decide)
theorem bt8 : Statement .bt8 := fun _ => .inl (by decide)
theorem bt9 : Statement .bt9 := fun _ => .inl (by decide)
theorem bt10 : Statement .bt10 := fun _ => .inl (by decide)
theorem bt11 : Statement .bt11 := fun _ => .inl (by decide)
theorem bt12 : Statement .bt12 := fun _ => .inl (by decide)
theorem bt13 : Statement .bt13 := fun _ => .inl (by decide)
theorem bt14 : Statement .bt14 := fun _ => .inl (by decide)
theorem bt15 : Statement .bt15 := fun _ => .inl (by decide)
theorem bt16 : Statement .bt16 := fun _ => .inl (by decide)
theorem bt17 : Statement .bt17 := fun _ => .inl (by decide)
theorem bt18 : Statement .bt18 := fun _ => .inl (by decide)
theorem bt19 : Statement .bt19 := fun _ => .inl (by decide)
theorem bt20 : Statement .bt20 := fun _ => .inl (by decide)
theorem bt21 : Statement .bt21 := fun _ => .inl (by decide)
theorem bt22 : Statement .bt22 := fun _ => .inl (by decide)
theorem bt23 : Statement .bt23 := fun _ => .inl (by decide)
theorem bt24 : Statement .bt24 := fun _ => .inl (by decide)
theorem bt25 : Statement .bt25 := fun _ => .inl (by decide)
theorem bt26 : Statement .bt26 := fun _ => .inl (by decide)
theorem bt27 : Statement .bt27 := fun _ => .inl (by decide)
theorem bt28 : Statement .bt28 := fun _ => .inl (by decide)
theorem bt29 : Statement .bt29 := fun _ => .inl (by decide)
theorem bt30 : Statement .bt30 := fun _ => .inl (by decide)
theorem bt31 : Statement .bt31 := fun _ => .inl (by decide)
theorem bt32 : Statement .bt32 := fun _ => .inl (by decide)
theorem bt33 : Statement .bt33 := fun _ => .inl (by decide)
theorem bt34 : Statement .bt34 := fun _ => .inl (by decide)
theorem bt35 : Statement .bt35 := fun _ => .inl (by decide)
theorem bt36 : Statement .bt36 := fun _ => .inl (by decide)
theorem bt37 : Statement .bt37 := fun _ => .inl (by decide)
theorem bt38 : Statement .bt38 := fun _ => .inl (by decide)
theorem bt39 : Statement .bt39 := fun _ => .inl (by decide)
theorem bt40 : Statement .bt40 := fun _ => .inl (by decide)
theorem bt41 : Statement .bt41 := fun _ => .inl (by decide)
theorem bt42 : Statement .bt42 := fun _ => .inl (by decide)
theorem bt43 : Statement .bt43 := fun _ => .inl (by decide)
theorem bt44 : Statement .bt44 := fun _ => .inl (by decide)
theorem bt45 : Statement .bt45 := fun _ => .inl (by decide)
theorem bt46 : Statement .bt46 := fun _ => .inl (by decide)
theorem bt47 : Statement .bt47 := fun _ => .inl (by decide)
theorem bt48 : Statement .bt48 := fun _ => .inl (by decide)
theorem bt49 : Statement .bt49 := fun _ => .inl (by decide)
theorem bt50 : Statement .bt50 := fun _ => .inl (by decide)
theorem bt51 : Statement .bt51 := fun _ => .inl (by decide)
theorem bt52 : Statement .bt52 := fun _ => .inl (by decide)
theorem bt53 : Statement .bt53 := fun _ => .inl (by decide)
theorem bt54 : Statement .bt54 := fun _ => .inl (by decide)
theorem bt55 : Statement .bt55 := fun _ => .inl (by decide)
theorem bt56 : Statement .bt56 := fun _ => .inl (by decide)
theorem bt57 : Statement .bt57 := fun _ => .inl (by decide)
theorem bt58 : Statement .bt58 := fun _ => .inl (by decide)
theorem bt59 : Statement .bt59 := fun _ => .inl (by decide)
theorem bt60 : Statement .bt60 := fun _ => .inl (by decide)
theorem bt61 : Statement .bt61 := fun _ => .inl (by decide)
theorem bt62 : Statement .bt62 := fun _ => .inl (by decide)
theorem bt63 : Statement .bt63 := fun _ => .inl (by decide)
theorem bm64 : Statement .bm64 := fun _ => .inl (by decide)
theorem bm128 : Statement .bm128 := fun _ => .inl (by decide)
theorem bm192 : Statement .bm192 := fun _ => .inl (by decide)
theorem bm256 : Statement .bm256 := fun _ => .inl (by decide)
theorem bm320 : Statement .bm320 := fun _ => .inl (by decide)
theorem bm384 : Statement .bm384 := fun _ => .inl (by decide)
theorem bm448 : Statement .bm448 := fun _ => .inl (by decide)
theorem bm512 : Statement .bm512 := fun _ => .inl (by decide)
theorem bm576 : Statement .bm576 := fun _ => .inl (by decide)
theorem bm640 : Statement .bm640 := fun _ => .inl (by decide)
theorem bm704 : Statement .bm704 := fun _ => .inl (by decide)
theorem bm768 : Statement .bm768 := fun _ => .inl (by decide)
theorem bm832 : Statement .bm832 := fun _ => .inl (by decide)
theorem bm896 : Statement .bm896 := fun _ => .inl (by decide)
theorem bm960 : Statement .bm960 := fun _ => .inl (by decide)
theorem bm1024 : Statement .bm1024 := fun _ => .inl (by decide)
theorem bm1088 : Statement .bm1088 := fun _ => .inl (by decide)
theorem bm1152 : Statement .bm1152 := fun _ => .inl (by decide)
theorem bm1216 : Statement .bm1216 := fun _ => .inl (by decide)
theorem bm1280 : Statement .bm1280 := fun _ => .inl (by decide)
theorem bm1344 : Statement .bm1344 := fun _ => .inl (by decide)
theorem bm1408 : Statement .bm1408 := fun _ => .inl (by decide)
theorem bm1472 : Statement .bm1472 := fun _ => .inl (by decide)
theorem bm1536 : Statement .bm1536 := fun _ => .inl (by decide)
theorem bm1600 : Statement .bm1600 := fun _ => .inl (by decide)
theorem bm1664 : Statement .bm1664 := fun _ => .inl (by decide)
theorem bm1728 : Statement .bm1728 := fun _ => .inl (by decide)
theorem xm1792 : Statement .xm1792 := fun _ => .inl (by decide)
theorem xm1856 : Statement .xm1856 := fun _ => .inl (by decide)
theorem xm1920 : Statement .xm1920 := fun _ => .inl (by decide)
theorem xm1984 : Statement .xm1984 := fun _ => .inl (by decide)
theorem xm2048 : Statement .xm2048 := fun _ => .inl (by decide)
theorem xm2112 : Statement .xm2112 := fun _ => .inl (by decide)
theorem xm2176 : Statement .xm2176 := fun _ => .inl (by decide)
theorem xm2240 : Statement .xm2240 := fun _ => .inl (by decide)
theorem xm2304 : Statement .xm2304 := fun _ => .inl (by decide)
theorem xm2368 : Statement .xm2368 := fun _ => .inl (by decide)
theorem xm2432 : Statement .xm2432 := fun _ => .inl (by decide)
theorem xm2496 : Statement .xm2496 := fun _ => .inl (by decide)
theorem xm2560 : Statement .xm2560 := fun _ => .inl (by decide)
theorem eol (fill : Nat) : Statement (.eol fill) := fun _ => .inr ⟨fill + 11, by omega, rfl⟩
theorem pix1 (e : Byte) : Statement (.pix1 e) := by
  intro _
  change [e].length = (Depth.d1.bits + 7) / 8
  simp [Depth.bits]
theorem pix4 (h : Nibble) (l : Nibble) : Statement (.pix4 h l) := by
  intro _
  change [nibbles h l].length = (Depth.d4.bits + 7) / 8
  simp [Depth.bits]
theorem pix8 (v : Byte) : Statement (.pix8 v) := by
  intro _
  change [v].length = (Depth.d8.bits + 7) / 8
  simp [Depth.bits]
theorem pix24 (b : Byte) (g : Byte) (r : Byte) : Statement (.pix24 b g r) := by
  intro _
  change [b, g, r].length = (Depth.d24.bits + 7) / 8
  simp [Depth.bits]
theorem pix32 (b : Byte) (g : Byte) (r : Byte) (x : Byte) : Statement (.pix32 b g r x) := by
  intro _
  change [b, g, r, x].length = (Depth.d32.bits + 7) / 8
  simp [Depth.bits]

end Sys2Proof.Laws.WordLength
end

