-- ==== Sys2Proof/Tests/Slice0.lean ====
section
/-!
SUPPORT. The model's own tests: ill-formed terms, the words of spec/opcode_table.json written out from its encodings, one
step of each family on the spec's examples, and for each statement a state that meets its hypotheses.
-/

set_option maxRecDepth 8000

namespace Sys2Proof.Tests

open Sys2Proof Sys2Proof.Machine

/-! ### Ill-formed terms -/

theorem test_illformed_rle8Run : Instr.wellFormed (.rle8Run 0 5) = false := by decide
theorem test_illformed_rle8Abs_count : Instr.wellFormed (.rle8Abs 2 [1, 2]) = false := by decide
theorem test_illformed_rle8Abs_data : Instr.wellFormed (.rle8Abs 3 [1, 2]) = false := by decide
theorem test_illformed_rle4Run : Instr.wellFormed (.rle4Run 0 1 2) = false := by decide
theorem test_illformed_rle4Abs_count : Instr.wellFormed (.rle4Abs 2 [1]) = false := by decide
theorem test_illformed_rle4Abs_data : Instr.wellFormed (.rle4Abs 3 [1]) = false := by decide
theorem test_illformed_rle24Run : Instr.wellFormed (.rle24Run 0 1 2 3) = false := by decide
theorem test_illformed_rle24Abs_count : Instr.wellFormed (.rle24Abs 2 [1, 2, 3, 4, 5, 6]) = false := by decide
theorem test_illformed_rle24Abs_data : Instr.wellFormed (.rle24Abs 3 [1, 2, 3]) = false := by decide
theorem test_illformed_encRun : Instr.wellFormed (.encRun 2 7) = false := by decide
theorem test_illformed_encAbs : Instr.wellFormed (.encAbs 4 [1]) = false := by decide
theorem test_illformed_encShort_count : Instr.wellFormed (.encShort 3 7 none) = false := by decide
theorem test_illformed_encShort_pair : Instr.wellFormed (.encShort 2 7 (some 8)) = false := by decide

/-! ### Words written out from the encodings of spec/opcode_table.json -/

/-- The decoder reads instruction i from the words. -/
def reads (ctx : Context) (w : Words) (i : Instr) : Bool :=
  match decode t4Table ctx w with
  | .ok j => decide (j = i)
  | .error _ => false

/-- The decoder reads each instruction from its code at a colour. -/
def readsCodes (c : Color) (l : List (List Nat × Instr)) : Bool :=
  l.all fun e => reads (.g3 c) (.code (e.1.map (· == 1))) e.2

/-- No flag of the command word is set. -/
def noFlags : CmdFlags := { palfmt := false, outfmt := false, a32 := false, irqEn := false }

/-- Every flag of the command word is set. -/
def allFlags : CmdFlags := { palfmt := true, outfmt := true, a32 := true, irqEn := true }


theorem test_decode_commands_0 :
    reads .command (.command 0b00000000000000000000000000000001) (.unpack1 noFlags) = true ∧
    reads .command (.command 0b00000000000000000000000100000001) (.unpack4 noFlags) = true ∧
    reads .command (.command 0b00000000000000000000001000000001) (.unpack8 noFlags) = true ∧
    reads .command (.command 0b00000000000000000000001100000001) (.unpack24 noFlags) = true ∧
    reads .command (.command 0b00000000000000000000010000000001) (.unpack32 noFlags) = true ∧
    reads .command (.command 0b00000000000000000000001000010001) (.decRle8 .d8 noFlags) = true ∧
    reads .command (.command 0b00000000000000000000000100100001) (.decRle4 .d4 noFlags) = true ∧
    reads .command (.command 0b00000000000000000000000000110001) (.decHuff .d1 noFlags) = true := by
  decide

theorem test_decode_commands_1 :
    reads .command (.command 0b00000000000000000000001101000001) (.decRle24 .d24 noFlags) = true ∧
    reads .command (.command 0b00000000000000000000001010010001) (.encRle8 .d8 noFlags) = true ∧
    reads .command (.command 0b00000000000000000000000110100001) (.encRle4 .d4 noFlags) = true ∧
    reads .command (.command 0b00000000000000000000000001010001) (.reservedOp5 0 noFlags) = true ∧
    reads .command (.command 0b00000000000000000000000001100001) (.reservedOp6 0 noFlags) = true ∧
    reads .command (.command 0b00000000000000000000000001110001) (.reservedOp7 0 noFlags) = true ∧
    reads .command (.command 0b00000000000000000000000010000001) (.reservedOp8 0 noFlags) = true ∧
    reads .command (.command 0b00000000000000000000000010110001) (.reservedOpB 0 noFlags) = true := by
  decide

theorem test_decode_commands_2 :
    reads .command (.command 0b00000000000000000000000011000001) (.reservedOpC 0 noFlags) = true ∧
    reads .command (.command 0b00000000000000000000000011010001) (.reservedOpD 0 noFlags) = true ∧
    reads .command (.command 0b00000000000000000000000011100001) (.reservedOpE 0 noFlags) = true ∧
    reads .command (.command 0b00000000000000000000000011110001) (.reservedOpF 0 noFlags) = true ∧
    reads .command (.command 0b00000000000000000000010100000001) (.reservedBpp5 .unpack noFlags) = true ∧
    reads .command (.command 0b00000000000000000000011000000001) (.reservedBpp6 .unpack noFlags) = true ∧
    reads .command (.command 0b00000000000000000000011100000001) (.reservedBpp7 .unpack noFlags) = true := by
  decide

theorem test_decode_commands_flags_0 :
    reads .command (.command 0b00000000000000010011100000000001) (.unpack1 allFlags) = true ∧
    reads .command (.command 0b00000000000000010011100100000001) (.unpack4 allFlags) = true ∧
    reads .command (.command 0b00000000000000010011101000000001) (.unpack8 allFlags) = true ∧
    reads .command (.command 0b00000000000000010011101100000001) (.unpack24 allFlags) = true ∧
    reads .command (.command 0b00000000000000010011110000000001) (.unpack32 allFlags) = true ∧
    reads .command (.command 0b00000000000000010011101000010001) (.decRle8 .d8 allFlags) = true ∧
    reads .command (.command 0b00000000000000010011100100100001) (.decRle4 .d4 allFlags) = true ∧
    reads .command (.command 0b00000000000000010011100000110001) (.decHuff .d1 allFlags) = true := by
  decide

theorem test_decode_commands_flags_1 :
    reads .command (.command 0b00000000000000010011101101000001) (.decRle24 .d24 allFlags) = true ∧
    reads .command (.command 0b00000000000000010011101010010001) (.encRle8 .d8 allFlags) = true ∧
    reads .command (.command 0b00000000000000010011100110100001) (.encRle4 .d4 allFlags) = true ∧
    reads .command (.command 0b00000000000000010011100001010001) (.reservedOp5 0 allFlags) = true ∧
    reads .command (.command 0b00000000000000010011100001100001) (.reservedOp6 0 allFlags) = true ∧
    reads .command (.command 0b00000000000000010011100001110001) (.reservedOp7 0 allFlags) = true ∧
    reads .command (.command 0b00000000000000010011100010000001) (.reservedOp8 0 allFlags) = true ∧
    reads .command (.command 0b00000000000000010011100010110001) (.reservedOpB 0 allFlags) = true := by
  decide

theorem test_decode_commands_flags_2 :
    reads .command (.command 0b00000000000000010011100011000001) (.reservedOpC 0 allFlags) = true ∧
    reads .command (.command 0b00000000000000010011100011010001) (.reservedOpD 0 allFlags) = true ∧
    reads .command (.command 0b00000000000000010011100011100001) (.reservedOpE 0 allFlags) = true ∧
    reads .command (.command 0b00000000000000010011100011110001) (.reservedOpF 0 allFlags) = true ∧
    reads .command (.command 0b00000000000000010011110100000001) (.reservedBpp5 .unpack allFlags) = true ∧
    reads .command (.command 0b00000000000000010011111000000001) (.reservedBpp6 .unpack allFlags) = true ∧
    reads .command (.command 0b00000000000000010011111100000001) (.reservedBpp7 .unpack allFlags) = true := by
  decide

/-- A codec word keeps the BPP field it has, right for the operation or not (R113). -/
theorem test_decode_command_depth :
    reads .command (.command 0b00000000000000000000000000010001) (.decRle8 .d1 noFlags) = true ∧
    reads .command (.command 0b00000000000000000000010000110001) (.decHuff .d32 noFlags) = true ∧
    reads .command (.command 0b00000000000000000000011100110001) (.reservedBpp7 .decHuff noFlags) = true := by
  decide

theorem test_decode_rle8 :
    reads (.rle .rle8) (.bytes [0b00000001, 0b11111111]) (.rle8Run 1 255) = true ∧
    reads (.rle .rle8) (.bytes [0b00000000, 0b00000000]) .rle8Eol = true ∧
    reads (.rle .rle8) (.bytes [0b00000000, 0b00000001]) .rle8Eob = true ∧
    reads (.rle .rle8) (.bytes [0b00000000, 0b00000010, 0b10000000, 0b00000001]) (.rle8Delta 128 1) = true ∧
    reads (.rle .rle8) (.bytes [0b00000000, 0b00000011, 10, 11, 12, 99]) (.rle8Abs 3 [10, 11, 12]) = true := by
  decide

theorem test_decode_rle4 :
    reads (.rle .rle4) (.bytes [0b11111111, 0b10100101]) (.rle4Run 255 0b1010 0b0101) = true ∧
    reads (.rle .rle4) (.bytes [0b00000000, 0b00000000]) .rle4Eol = true ∧
    reads (.rle .rle4) (.bytes [0b00000000, 0b00000001]) .rle4Eob = true ∧
    reads (.rle .rle4) (.bytes [0b00000000, 0b00000010, 0b00000011, 0b00000000]) (.rle4Delta 3 0) = true ∧
    reads (.rle .rle4) (.bytes [0b00000000, 0b00000101, 0x12, 0x34, 0x50, 99]) (.rle4Abs 5 [0x12, 0x34, 0x50]) = true := by
  decide

theorem test_decode_rle24 :
    reads (.rle .rle24) (.bytes [0b00000010, 0b00000001, 0b00000010, 0b00000011]) (.rle24Run 2 1 2 3) = true ∧
    reads (.rle .rle24) (.bytes [0b00000000, 0b00000000]) .rle24Eol = true ∧
    reads (.rle .rle24) (.bytes [0b00000000, 0b00000001]) .rle24Eob = true ∧
    reads (.rle .rle24) (.bytes [0b00000000, 0b00000010, 0b00000000, 0b11111111]) (.rle24Delta 0 255) = true ∧
    reads (.rle .rle24) (.bytes [0b00000000, 0b00000011, 1, 2, 3, 4, 5, 6, 7, 8, 9, 0])
      (.rle24Abs 3 [1, 2, 3, 4, 5, 6, 7, 8, 9]) = true := by
  decide

theorem test_decode_emitted :
    reads .emit8 (.bytes [0b00000100, 0b00000111]) (.encRun 4 7) = true ∧
    reads .emit8 (.bytes [0b00000000, 0b00000011, 1, 2, 3, 0]) (.encAbs 3 [1, 2, 3]) = true ∧
    reads .emit4 (.bytes [0b00000000, 0b00000011, 0x12, 0x30]) (.encAbs 3 [0x12, 0x30]) = true ∧
    reads .emit8 (.bytes [0b00000010, 0b00000111]) (.encShort 2 7 none) = true ∧
    reads .emit8 (.bytes [0b00000001, 5, 0b00000001, 6]) (.encShort 1 5 (some 6)) = true ∧
    reads .emit4 (.bytes [0b00000001, 0x50]) (.encShort 1 0x50 none) = true ∧
    reads .emit8 (.bytes [0b00000000, 0b00000000]) .encEol = true ∧
    reads .emit8 (.bytes [0b00000000, 0b00000001]) .encEob = true := by
  decide

theorem test_decode_pixels :
    reads (.pix .d1) (.bytes [0b10000001]) (.pix1 0b10000001) = true ∧
    reads (.pix .d4) (.bytes [0b11000011]) (.pix4 0b1100 0b0011) = true ∧
    reads (.pix .d8) (.bytes [0b11111110]) (.pix8 254) = true ∧
    reads (.pix .d24) (.bytes [1, 2, 3]) (.pix24 1 2 3) = true ∧
    reads (.pix .d32) (.bytes [1, 2, 3, 4]) (.pix32 1 2 3 4) = true := by
  decide

theorem test_decode_white_terminating_0 :
    readsCodes .white [
      ([0, 0, 1, 1, 0, 1, 0, 1], .wt0),
      ([0, 0, 0, 1, 1, 1], .wt1),
      ([0, 1, 1, 1], .wt2),
      ([1, 0, 0, 0], .wt3),
      ([1, 0, 1, 1], .wt4),
      ([1, 1, 0, 0], .wt5),
      ([1, 1, 1, 0], .wt6),
      ([1, 1, 1, 1], .wt7),
      ([1, 0, 0, 1, 1], .wt8),
      ([1, 0, 1, 0, 0], .wt9),
      ([0, 0, 1, 1, 1], .wt10),
      ([0, 1, 0, 0, 0], .wt11),
      ([0, 0, 1, 0, 0, 0], .wt12),
      ([0, 0, 0, 0, 1, 1], .wt13),
      ([1, 1, 0, 1, 0, 0], .wt14),
      ([1, 1, 0, 1, 0, 1], .wt15)] = true := by
  decide

theorem test_decode_white_terminating_1 :
    readsCodes .white [
      ([1, 0, 1, 0, 1, 0], .wt16),
      ([1, 0, 1, 0, 1, 1], .wt17),
      ([0, 1, 0, 0, 1, 1, 1], .wt18),
      ([0, 0, 0, 1, 1, 0, 0], .wt19),
      ([0, 0, 0, 1, 0, 0, 0], .wt20),
      ([0, 0, 1, 0, 1, 1, 1], .wt21),
      ([0, 0, 0, 0, 0, 1, 1], .wt22),
      ([0, 0, 0, 0, 1, 0, 0], .wt23),
      ([0, 1, 0, 1, 0, 0, 0], .wt24),
      ([0, 1, 0, 1, 0, 1, 1], .wt25),
      ([0, 0, 1, 0, 0, 1, 1], .wt26),
      ([0, 1, 0, 0, 1, 0, 0], .wt27),
      ([0, 0, 1, 1, 0, 0, 0], .wt28),
      ([0, 0, 0, 0, 0, 0, 1, 0], .wt29),
      ([0, 0, 0, 0, 0, 0, 1, 1], .wt30),
      ([0, 0, 0, 1, 1, 0, 1, 0], .wt31)] = true := by
  decide

theorem test_decode_white_terminating_2 :
    readsCodes .white [
      ([0, 0, 0, 1, 1, 0, 1, 1], .wt32),
      ([0, 0, 0, 1, 0, 0, 1, 0], .wt33),
      ([0, 0, 0, 1, 0, 0, 1, 1], .wt34),
      ([0, 0, 0, 1, 0, 1, 0, 0], .wt35),
      ([0, 0, 0, 1, 0, 1, 0, 1], .wt36),
      ([0, 0, 0, 1, 0, 1, 1, 0], .wt37),
      ([0, 0, 0, 1, 0, 1, 1, 1], .wt38),
      ([0, 0, 1, 0, 1, 0, 0, 0], .wt39),
      ([0, 0, 1, 0, 1, 0, 0, 1], .wt40),
      ([0, 0, 1, 0, 1, 0, 1, 0], .wt41),
      ([0, 0, 1, 0, 1, 0, 1, 1], .wt42),
      ([0, 0, 1, 0, 1, 1, 0, 0], .wt43),
      ([0, 0, 1, 0, 1, 1, 0, 1], .wt44),
      ([0, 0, 0, 0, 0, 1, 0, 0], .wt45),
      ([0, 0, 0, 0, 0, 1, 0, 1], .wt46),
      ([0, 0, 0, 0, 1, 0, 1, 0], .wt47)] = true := by
  decide

theorem test_decode_white_terminating_3 :
    readsCodes .white [
      ([0, 0, 0, 0, 1, 0, 1, 1], .wt48),
      ([0, 1, 0, 1, 0, 0, 1, 0], .wt49),
      ([0, 1, 0, 1, 0, 0, 1, 1], .wt50),
      ([0, 1, 0, 1, 0, 1, 0, 0], .wt51),
      ([0, 1, 0, 1, 0, 1, 0, 1], .wt52),
      ([0, 0, 1, 0, 0, 1, 0, 0], .wt53),
      ([0, 0, 1, 0, 0, 1, 0, 1], .wt54),
      ([0, 1, 0, 1, 1, 0, 0, 0], .wt55),
      ([0, 1, 0, 1, 1, 0, 0, 1], .wt56),
      ([0, 1, 0, 1, 1, 0, 1, 0], .wt57),
      ([0, 1, 0, 1, 1, 0, 1, 1], .wt58),
      ([0, 1, 0, 0, 1, 0, 1, 0], .wt59),
      ([0, 1, 0, 0, 1, 0, 1, 1], .wt60),
      ([0, 0, 1, 1, 0, 0, 1, 0], .wt61),
      ([0, 0, 1, 1, 0, 0, 1, 1], .wt62),
      ([0, 0, 1, 1, 0, 1, 0, 0], .wt63)] = true := by
  decide

theorem test_decode_white_makeup_0 :
    readsCodes .white [
      ([1, 1, 0, 1, 1], .wm64),
      ([1, 0, 0, 1, 0], .wm128),
      ([0, 1, 0, 1, 1, 1], .wm192),
      ([0, 1, 1, 0, 1, 1, 1], .wm256),
      ([0, 0, 1, 1, 0, 1, 1, 0], .wm320),
      ([0, 0, 1, 1, 0, 1, 1, 1], .wm384),
      ([0, 1, 1, 0, 0, 1, 0, 0], .wm448),
      ([0, 1, 1, 0, 0, 1, 0, 1], .wm512),
      ([0, 1, 1, 0, 1, 0, 0, 0], .wm576),
      ([0, 1, 1, 0, 0, 1, 1, 1], .wm640),
      ([0, 1, 1, 0, 0, 1, 1, 0, 0], .wm704),
      ([0, 1, 1, 0, 0, 1, 1, 0, 1], .wm768),
      ([0, 1, 1, 0, 1, 0, 0, 1, 0], .wm832),
      ([0, 1, 1, 0, 1, 0, 0, 1, 1], .wm896),
      ([0, 1, 1, 0, 1, 0, 1, 0, 0], .wm960),
      ([0, 1, 1, 0, 1, 0, 1, 0, 1], .wm1024)] = true := by
  decide

theorem test_decode_white_makeup_1 :
    readsCodes .white [
      ([0, 1, 1, 0, 1, 0, 1, 1, 0], .wm1088),
      ([0, 1, 1, 0, 1, 0, 1, 1, 1], .wm1152),
      ([0, 1, 1, 0, 1, 1, 0, 0, 0], .wm1216),
      ([0, 1, 1, 0, 1, 1, 0, 0, 1], .wm1280),
      ([0, 1, 1, 0, 1, 1, 0, 1, 0], .wm1344),
      ([0, 1, 1, 0, 1, 1, 0, 1, 1], .wm1408),
      ([0, 1, 0, 0, 1, 1, 0, 0, 0], .wm1472),
      ([0, 1, 0, 0, 1, 1, 0, 0, 1], .wm1536),
      ([0, 1, 0, 0, 1, 1, 0, 1, 0], .wm1600),
      ([0, 1, 1, 0, 0, 0], .wm1664),
      ([0, 1, 0, 0, 1, 1, 0, 1, 1], .wm1728)] = true := by
  decide

theorem test_decode_black_terminating_0 :
    readsCodes .black [
      ([0, 0, 0, 0, 1, 1, 0, 1, 1, 1], .bt0),
      ([0, 1, 0], .bt1),
      ([1, 1], .bt2),
      ([1, 0], .bt3),
      ([0, 1, 1], .bt4),
      ([0, 0, 1, 1], .bt5),
      ([0, 0, 1, 0], .bt6),
      ([0, 0, 0, 1, 1], .bt7),
      ([0, 0, 0, 1, 0, 1], .bt8),
      ([0, 0, 0, 1, 0, 0], .bt9),
      ([0, 0, 0, 0, 1, 0, 0], .bt10),
      ([0, 0, 0, 0, 1, 0, 1], .bt11),
      ([0, 0, 0, 0, 1, 1, 1], .bt12),
      ([0, 0, 0, 0, 0, 1, 0, 0], .bt13),
      ([0, 0, 0, 0, 0, 1, 1, 1], .bt14),
      ([0, 0, 0, 0, 1, 1, 0, 0, 0], .bt15)] = true := by
  decide

theorem test_decode_black_terminating_1 :
    readsCodes .black [
      ([0, 0, 0, 0, 0, 1, 0, 1, 1, 1], .bt16),
      ([0, 0, 0, 0, 0, 1, 1, 0, 0, 0], .bt17),
      ([0, 0, 0, 0, 0, 0, 1, 0, 0, 0], .bt18),
      ([0, 0, 0, 0, 1, 1, 0, 0, 1, 1, 1], .bt19),
      ([0, 0, 0, 0, 1, 1, 0, 1, 0, 0, 0], .bt20),
      ([0, 0, 0, 0, 1, 1, 0, 1, 1, 0, 0], .bt21),
      ([0, 0, 0, 0, 0, 1, 1, 0, 1, 1, 1], .bt22),
      ([0, 0, 0, 0, 0, 1, 0, 1, 0, 0, 0], .bt23),
      ([0, 0, 0, 0, 0, 0, 1, 0, 1, 1, 1], .bt24),
      ([0, 0, 0, 0, 0, 0, 1, 1, 0, 0, 0], .bt25),
      ([0, 0, 0, 0, 1, 1, 0, 0, 1, 0, 1, 0], .bt26),
      ([0, 0, 0, 0, 1, 1, 0, 0, 1, 0, 1, 1], .bt27),
      ([0, 0, 0, 0, 1, 1, 0, 0, 1, 1, 0, 0], .bt28),
      ([0, 0, 0, 0, 1, 1, 0, 0, 1, 1, 0, 1], .bt29),
      ([0, 0, 0, 0, 0, 1, 1, 0, 1, 0, 0, 0], .bt30),
      ([0, 0, 0, 0, 0, 1, 1, 0, 1, 0, 0, 1], .bt31)] = true := by
  decide

theorem test_decode_black_terminating_2 :
    readsCodes .black [
      ([0, 0, 0, 0, 0, 1, 1, 0, 1, 0, 1, 0], .bt32),
      ([0, 0, 0, 0, 0, 1, 1, 0, 1, 0, 1, 1], .bt33),
      ([0, 0, 0, 0, 1, 1, 0, 1, 0, 0, 1, 0], .bt34),
      ([0, 0, 0, 0, 1, 1, 0, 1, 0, 0, 1, 1], .bt35),
      ([0, 0, 0, 0, 1, 1, 0, 1, 0, 1, 0, 0], .bt36),
      ([0, 0, 0, 0, 1, 1, 0, 1, 0, 1, 0, 1], .bt37),
      ([0, 0, 0, 0, 1, 1, 0, 1, 0, 1, 1, 0], .bt38),
      ([0, 0, 0, 0, 1, 1, 0, 1, 0, 1, 1, 1], .bt39),
      ([0, 0, 0, 0, 0, 1, 1, 0, 1, 1, 0, 0], .bt40),
      ([0, 0, 0, 0, 0, 1, 1, 0, 1, 1, 0, 1], .bt41),
      ([0, 0, 0, 0, 1, 1, 0, 1, 1, 0, 1, 0], .bt42),
      ([0, 0, 0, 0, 1, 1, 0, 1, 1, 0, 1, 1], .bt43),
      ([0, 0, 0, 0, 0, 1, 0, 1, 0, 1, 0, 0], .bt44),
      ([0, 0, 0, 0, 0, 1, 0, 1, 0, 1, 0, 1], .bt45),
      ([0, 0, 0, 0, 0, 1, 0, 1, 0, 1, 1, 0], .bt46),
      ([0, 0, 0, 0, 0, 1, 0, 1, 0, 1, 1, 1], .bt47)] = true := by
  decide

theorem test_decode_black_terminating_3 :
    readsCodes .black [
      ([0, 0, 0, 0, 0, 1, 1, 0, 0, 1, 0, 0], .bt48),
      ([0, 0, 0, 0, 0, 1, 1, 0, 0, 1, 0, 1], .bt49),
      ([0, 0, 0, 0, 0, 1, 0, 1, 0, 0, 1, 0], .bt50),
      ([0, 0, 0, 0, 0, 1, 0, 1, 0, 0, 1, 1], .bt51),
      ([0, 0, 0, 0, 0, 0, 1, 0, 0, 1, 0, 0], .bt52),
      ([0, 0, 0, 0, 0, 0, 1, 1, 0, 1, 1, 1], .bt53),
      ([0, 0, 0, 0, 0, 0, 1, 1, 1, 0, 0, 0], .bt54),
      ([0, 0, 0, 0, 0, 0, 1, 0, 0, 1, 1, 1], .bt55),
      ([0, 0, 0, 0, 0, 0, 1, 0, 1, 0, 0, 0], .bt56),
      ([0, 0, 0, 0, 0, 1, 0, 1, 1, 0, 0, 0], .bt57),
      ([0, 0, 0, 0, 0, 1, 0, 1, 1, 0, 0, 1], .bt58),
      ([0, 0, 0, 0, 0, 0, 1, 0, 1, 0, 1, 1], .bt59),
      ([0, 0, 0, 0, 0, 0, 1, 0, 1, 1, 0, 0], .bt60),
      ([0, 0, 0, 0, 0, 1, 0, 1, 1, 0, 1, 0], .bt61),
      ([0, 0, 0, 0, 0, 1, 1, 0, 0, 1, 1, 0], .bt62),
      ([0, 0, 0, 0, 0, 1, 1, 0, 0, 1, 1, 1], .bt63)] = true := by
  decide

theorem test_decode_black_makeup_0 :
    readsCodes .black [
      ([0, 0, 0, 0, 0, 0, 1, 1, 1, 1], .bm64),
      ([0, 0, 0, 0, 1, 1, 0, 0, 1, 0, 0, 0], .bm128),
      ([0, 0, 0, 0, 1, 1, 0, 0, 1, 0, 0, 1], .bm192),
      ([0, 0, 0, 0, 0, 1, 0, 1, 1, 0, 1, 1], .bm256),
      ([0, 0, 0, 0, 0, 0, 1, 1, 0, 0, 1, 1], .bm320),
      ([0, 0, 0, 0, 0, 0, 1, 1, 0, 1, 0, 0], .bm384),
      ([0, 0, 0, 0, 0, 0, 1, 1, 0, 1, 0, 1], .bm448),
      ([0, 0, 0, 0, 0, 0, 1, 1, 0, 1, 1, 0, 0], .bm512),
      ([0, 0, 0, 0, 0, 0, 1, 1, 0, 1, 1, 0, 1], .bm576),
      ([0, 0, 0, 0, 0, 0, 1, 0, 0, 1, 0, 1, 0], .bm640),
      ([0, 0, 0, 0, 0, 0, 1, 0, 0, 1, 0, 1, 1], .bm704),
      ([0, 0, 0, 0, 0, 0, 1, 0, 0, 1, 1, 0, 0], .bm768),
      ([0, 0, 0, 0, 0, 0, 1, 0, 0, 1, 1, 0, 1], .bm832),
      ([0, 0, 0, 0, 0, 0, 1, 1, 1, 0, 0, 1, 0], .bm896),
      ([0, 0, 0, 0, 0, 0, 1, 1, 1, 0, 0, 1, 1], .bm960),
      ([0, 0, 0, 0, 0, 0, 1, 1, 1, 0, 1, 0, 0], .bm1024)] = true := by
  decide

theorem test_decode_black_makeup_1 :
    readsCodes .black [
      ([0, 0, 0, 0, 0, 0, 1, 1, 1, 0, 1, 0, 1], .bm1088),
      ([0, 0, 0, 0, 0, 0, 1, 1, 1, 0, 1, 1, 0], .bm1152),
      ([0, 0, 0, 0, 0, 0, 1, 1, 1, 0, 1, 1, 1], .bm1216),
      ([0, 0, 0, 0, 0, 0, 1, 0, 1, 0, 0, 1, 0], .bm1280),
      ([0, 0, 0, 0, 0, 0, 1, 0, 1, 0, 0, 1, 1], .bm1344),
      ([0, 0, 0, 0, 0, 0, 1, 0, 1, 0, 1, 0, 0], .bm1408),
      ([0, 0, 0, 0, 0, 0, 1, 0, 1, 0, 1, 0, 1], .bm1472),
      ([0, 0, 0, 0, 0, 0, 1, 0, 1, 1, 0, 1, 0], .bm1536),
      ([0, 0, 0, 0, 0, 0, 1, 0, 1, 1, 0, 1, 1], .bm1600),
      ([0, 0, 0, 0, 0, 0, 1, 1, 0, 0, 1, 0, 0], .bm1664),
      ([0, 0, 0, 0, 0, 0, 1, 1, 0, 0, 1, 0, 1], .bm1728)] = true := by
  decide

theorem test_decode_shared_white_0 :
    readsCodes .white [
      ([0, 0, 0, 0, 0, 0, 0, 1, 0, 0, 0], .xm1792),
      ([0, 0, 0, 0, 0, 0, 0, 1, 1, 0, 0], .xm1856),
      ([0, 0, 0, 0, 0, 0, 0, 1, 1, 0, 1], .xm1920),
      ([0, 0, 0, 0, 0, 0, 0, 1, 0, 0, 1, 0], .xm1984),
      ([0, 0, 0, 0, 0, 0, 0, 1, 0, 0, 1, 1], .xm2048),
      ([0, 0, 0, 0, 0, 0, 0, 1, 0, 1, 0, 0], .xm2112),
      ([0, 0, 0, 0, 0, 0, 0, 1, 0, 1, 0, 1], .xm2176),
      ([0, 0, 0, 0, 0, 0, 0, 1, 0, 1, 1, 0], .xm2240),
      ([0, 0, 0, 0, 0, 0, 0, 1, 0, 1, 1, 1], .xm2304),
      ([0, 0, 0, 0, 0, 0, 0, 1, 1, 1, 0, 0], .xm2368),
      ([0, 0, 0, 0, 0, 0, 0, 1, 1, 1, 0, 1], .xm2432),
      ([0, 0, 0, 0, 0, 0, 0, 1, 1, 1, 1, 0], .xm2496),
      ([0, 0, 0, 0, 0, 0, 0, 1, 1, 1, 1, 1], .xm2560)] = true := by
  decide

theorem test_decode_shared_black_0 :
    readsCodes .black [
      ([0, 0, 0, 0, 0, 0, 0, 1, 0, 0, 0], .xm1792),
      ([0, 0, 0, 0, 0, 0, 0, 1, 1, 0, 0], .xm1856),
      ([0, 0, 0, 0, 0, 0, 0, 1, 1, 0, 1], .xm1920),
      ([0, 0, 0, 0, 0, 0, 0, 1, 0, 0, 1, 0], .xm1984),
      ([0, 0, 0, 0, 0, 0, 0, 1, 0, 0, 1, 1], .xm2048),
      ([0, 0, 0, 0, 0, 0, 0, 1, 0, 1, 0, 0], .xm2112),
      ([0, 0, 0, 0, 0, 0, 0, 1, 0, 1, 0, 1], .xm2176),
      ([0, 0, 0, 0, 0, 0, 0, 1, 0, 1, 1, 0], .xm2240),
      ([0, 0, 0, 0, 0, 0, 0, 1, 0, 1, 1, 1], .xm2304),
      ([0, 0, 0, 0, 0, 0, 0, 1, 1, 1, 0, 0], .xm2368),
      ([0, 0, 0, 0, 0, 0, 0, 1, 1, 1, 0, 1], .xm2432),
      ([0, 0, 0, 0, 0, 0, 0, 1, 1, 1, 1, 0], .xm2496),
      ([0, 0, 0, 0, 0, 0, 0, 1, 1, 1, 1, 1], .xm2560)] = true := by
  decide

theorem test_decode_eol :
    readsCodes .white [([0, 0, 0, 0, 0, 0, 0, 0, 0, 0, 0, 1], .eol 0), ([0, 0, 0, 0, 0, 0, 0, 0, 0, 0, 0, 0, 0, 1], .eol 2)]
      = true ∧
    readsCodes .black [([0, 0, 0, 0, 0, 0, 0, 0, 0, 0, 0, 1], .eol 0)] = true := by
  decide

/-- A G3_TABLE other than the default one: the white codes of the runs 2 and 3 change places (R6). -/
def otherTable : G3Table := { t4Table with wt := (t4Table.wt.set 2 ⟨4, 0b1000⟩).set 3 ⟨4, 0b0111⟩ }

theorem test_decode_other_table :
    (match decode otherTable (.g3 .white) (.code [true, false, false, false]) with
      | .ok i => decide (i = .wt2) | .error _ => false) = true ∧
    encodeCode otherTable .wt3 = [false, true, true, true] ∧ encodeCode otherTable .wt4 = [true, false, true, true] := by
  decide

set_option maxRecDepth 20000 in
theorem test_other_table_wf : otherTable.wf = true := by decide

/-! ### Small states -/

/-- The answer is a next state with the property. -/
def after (o : Host.Outcome State Fault Refusal) (p : State → Bool) : Bool :=
  match o with
  | .next t => p t
  | .fault _ => false
  | .refused _ => false

/-- The n bytes of memory from an address on. -/
def bytesAt (s : State) (a n : Nat) : List Byte := (List.range n).map fun k => s.memByte (a + k)

/-- A body on an image of w × h pixels: the input at 0x2000, OUT's bytes 0 at 0x1000. -/
def bodyOf (op : Operation) (d : Depth) (input : List Byte) (w h outLen : Nat) : State :=
  let s := State.reset.placeInput op d input w h outLen
  { s with mem := s.mem.writeList 0x1000 (List.replicate outLen 0) }

/-- A decoder of RLE units at (x, y) of a 4 × 2 image, input offset p next. -/
def rleAt (v : Rle) (input : List Byte) (p x y outLen : Nat) : State :=
  (bodyOf (Rle.operation v) (Rle.depth v) input 4 2 outLen).moveTo p x y

/-- A Group-3 decoder at (x, y), bit q of 16 next, the leading EOL read. -/
def huffAt (w outLen q x y pend : Nat) (c : Color) : State :=
  let s := bodyOf .decHuff .d1 [0, 0] w 2 outLen
  { s with
    eng := { s.eng with
      q := .ofNat 35 q, x := .ofNat 32 x, y := .ofNat 32 y, pend := .ofNat 32 pend, color := c, started := true }
    pos := { s.pos with inPos := .ofNat 32 ((q + 7) / 8), curX := .ofNat 32 x, curY := .ofNat 32 y } }

/-- An encoder in row r of two, item i of it next, o bytes written. -/
def encAt (op : Operation) (d : Depth) (w outLen r i cnt o : Nat) (input : List Byte) : State :=
  let s := bodyOf op d input w 2 outLen
  { s with
    eng := { s.eng with r := .ofNat 32 r, i := .ofNat 32 i, cnt := .ofNat 32 cnt, o := .ofNat 32 o }
    pos := { s.pos with
      inPos := .ofNat 32 (r * stride d w), outPos := .ofNat 32 o, curX := .ofNat 32 cnt, curY := .ofNat 32 r } }

/-- The unpacker at pixel x of image row j of a 2 × 2 image, a colour table of 16 bytes at 0x4000. -/
def pixAt (d : Depth) (f : CmdFlags) (palCount : Nat) (j x : Nat) (input : List Byte) : State :=
  let s := State.reset.placeInput .unpack d input 2 2 (4 * outPixelSize f)
  let size := outPixelSize f
  { s with
    ctrl := { s.ctrl with flags := f }
    cfg := { s.cfg with palCount := .ofNat 32 palCount }
    mem := (s.mem.writeList 0x1000 (List.replicate (4 * size) 0)).writeList 0x4000
      [0, 0, 0, 0, 1, 2, 3, 4, 5, 6, 7, 8, 9, 10, 11, 12]
    eng := { s.eng with
      x := .ofNat 32 x, j := .ofNat 32 j, y := .ofNat 32 (1 - j), o := .ofNat 32 ((j * 2 + x) * size) }
    pos := { s.pos with
      outPos := .ofNat 32 ((j * 2 + x) * size)
      curX := if 0 < x then 0 else if 0 < j then 1 else 0
      curY := if 0 < x then .ofNat 32 j else 0 } }

/-- A command word latched on an 8-bpp image of 4 × 2 pixels. -/
def started (op : BitVec 4) (bpp : BitVec 3) (inLen outLen : Nat) : State :=
  let s := bodyOf .decRle8 .d8 [] 4 2 outLen
  { s with
    ctrl := { op := op, bpp := bpp, flags := noFlags }
    cfg := { s.cfg with inLen := .ofNat 32 inLen }
    eng := { s.eng with phase := .start } }

/-- A state with pending inputs. -/
def pending (s : State) (l : List Input) : State := s.withInputs l

/-- The hypotheses of the statements about RLE units hold, and the unit ends its operation with code c. -/
def unitEnds (v : Rle) (i : Instr) (c : ErrCode) (s : State) : Bool :=
  i.wellFormed && s.running (Rle.operation v) (Rle.depth v) && s.plat.races.isEmpty &&
    after (exec i s) fun t => t.status.errcode == c && t.status.done && !t.busy && t.mem == s.mem

/-- The hypotheses hold, and the unit leaves bytes bs at offset k of OUT, and p, x, y. -/
def unitWrites (v : Rle) (i : Instr) (k : Nat) (bs : List Byte) (p x y : Nat) (s : State) : Bool :=
  i.wellFormed && s.running (Rle.operation v) (Rle.depth v) && s.plat.races.isEmpty &&
    after (exec i s) fun t => bytesAt t (0x1000 + k) bs.length == bs && t.status == .zero && t.busy &&
      t.eng.p.toNat == p && t.pos.inPos.toNat == p && t.pos.curX.toNat == x && t.pos.curY.toNat == y

/-! ### RLE units, each outcome at its boundary (R153, R161 to R168) -/

theorem test_meets_Rle8Run :
    unitEnds .rle8 (.rle8Run 3 5) .truncated (rleAt .rle8 [3, 5] 1 0 0 8) = true ∧
    unitEnds .rle8 (.rle8Run 3 5) .widthOverflow (rleAt .rle8 [3, 5] 0 2 2 8) = true ∧
    unitEnds .rle8 (.rle8Run 3 5) .bufferOverflow (rleAt .rle8 [3, 5] 0 1 2 8) = true ∧
    unitEnds .rle8 (.rle8Run 3 5) .bufferOverflow (rleAt .rle8 [3, 5] 0 1 1 7) = true ∧
    unitWrites .rle8 (.rle8Run 3 5) 3 [0, 0, 5, 5, 5] 2 4 1 (rleAt .rle8 [3, 5] 0 1 1 8) = true := by
  decide

theorem test_meets_Rle8Abs :
    unitEnds .rle8 (.rle8Abs 3 [10, 11, 12]) .truncated (rleAt .rle8 [0, 3, 10, 11, 12] 0 0 0 8) = true ∧
    unitEnds .rle8 (.rle8Abs 3 [10, 11, 12]) .widthOverflow (rleAt .rle8 [0, 3, 10, 11, 12, 0] 0 2 0 8) = true ∧
    unitEnds .rle8 (.rle8Abs 3 [10, 11, 12]) .bufferOverflow (rleAt .rle8 [0, 3, 10, 11, 12, 0] 0 0 2 8) = true ∧
    unitWrites .rle8 (.rle8Abs 3 [10, 11, 12]) 0 [10, 11, 12, 0] 6 3 0 (rleAt .rle8 [0, 3, 10, 11, 12, 0] 0 0 0 8)
      = true := by
  decide

theorem test_meets_Rle4Run :
    unitEnds .rle4 (.rle4Run 3 1 2) .truncated (rleAt .rle4 [3, 0x12] 1 0 0 8) = true ∧
    unitEnds .rle4 (.rle4Run 3 1 2) .widthOverflow (rleAt .rle4 [3, 0x12] 0 2 0 8) = true ∧
    unitEnds .rle4 (.rle4Run 3 1 2) .bufferOverflow (rleAt .rle4 [3, 0x12] 0 1 1 5) = true ∧
    unitWrites .rle4 (.rle4Run 3 1 2) 4 [0x01, 0x21] 2 4 1 (rleAt .rle4 [3, 0x12] 0 1 1 6) = true := by
  decide

theorem test_meets_Rle4Abs :
    unitEnds .rle4 (.rle4Abs 3 [0x12, 0x30]) .truncated (rleAt .rle4 [0, 3, 0x12] 0 0 0 8) = true ∧
    unitEnds .rle4 (.rle4Abs 3 [0x12, 0x30]) .widthOverflow (rleAt .rle4 [0, 3, 0x12, 0x30] 0 2 0 8) = true ∧
    unitEnds .rle4 (.rle4Abs 3 [0x12, 0x30]) .bufferOverflow (rleAt .rle4 [0, 3, 0x12, 0x30] 0 1 1 5) = true ∧
    unitWrites .rle4 (.rle4Abs 3 [0x12, 0x30]) 0 [0x12, 0x30, 0, 0] 4 3 0 (rleAt .rle4 [0, 3, 0x12, 0x30] 0 0 0 8)
      = true := by
  decide

theorem test_meets_Rle24Run :
    unitEnds .rle24 (.rle24Run 2 1 2 3) .truncated (rleAt .rle24 [2, 1, 2] 0 0 0 24) = true ∧
    unitEnds .rle24 (.rle24Run 2 1 2 3) .widthOverflow (rleAt .rle24 [2, 1, 2, 3] 0 3 0 24) = true ∧
    unitEnds .rle24 (.rle24Run 2 1 2 3) .bufferOverflow (rleAt .rle24 [2, 1, 2, 3] 0 2 1 23) = true ∧
    unitWrites .rle24 (.rle24Run 2 1 2 3) 17 [0, 1, 2, 3, 1, 2, 3] 4 4 1 (rleAt .rle24 [2, 1, 2, 3] 0 2 1 24)
      = true := by
  decide

theorem test_meets_Rle24Abs :
    unitEnds .rle24 (.rle24Abs 3 [1, 2, 3, 4, 5, 6, 7, 8, 9]) .truncated
      (rleAt .rle24 [0, 3, 1, 2, 3, 4, 5, 6, 7, 8, 9] 0 0 0 24) = true ∧
    unitEnds .rle24 (.rle24Abs 3 [1, 2, 3, 4, 5, 6, 7, 8, 9]) .widthOverflow
      (rleAt .rle24 [0, 3, 1, 2, 3, 4, 5, 6, 7, 8, 9, 0] 0 2 0 24) = true ∧
    unitEnds .rle24 (.rle24Abs 3 [1, 2, 3, 4, 5, 6, 7, 8, 9]) .bufferOverflow
      (rleAt .rle24 [0, 3, 1, 2, 3, 4, 5, 6, 7, 8, 9, 0] 0 1 1 23) = true ∧
    unitWrites .rle24 (.rle24Abs 3 [1, 2, 3, 4, 5, 6, 7, 8, 9]) 12 [0, 0, 0, 1, 2, 3, 4, 5, 6, 7, 8, 9] 12 4 1
      (rleAt .rle24 [0, 3, 1, 2, 3, 4, 5, 6, 7, 8, 9, 0] 0 1 1 24) = true := by
  decide

theorem test_meets_RleEscapes :
    unitEnds .rle8 .rle8Eol .truncated (rleAt .rle8 [0, 0] 1 0 0 8) = true ∧
    unitWrites .rle4 .rle4Eol 0 [] 2 0 2 (rleAt .rle4 [0, 0] 0 3 1 8) = true ∧
    unitWrites .rle24 .rle24Eol 0 [] 2 0 (2 ^ 32 - 1) (rleAt .rle24 [0, 0] 0 3 (2 ^ 32 - 1) 24) = true ∧
    unitEnds .rle24 .rle24Eob .truncated (rleAt .rle24 [0, 1] 1 0 0 24) = true ∧
    unitEnds .rle8 .rle8Eob .none (rleAt .rle8 [0, 1] 0 9 9 8) = true ∧
    unitEnds .rle8 (.rle8Delta 1 1) .truncated (rleAt .rle8 [0, 2, 1] 0 0 0 8) = true ∧
    unitWrites .rle8 (.rle8Delta 255 1) 0 [] 4 255 1 (rleAt .rle8 [0, 2, 255, 1] 0 0 0 8) = true ∧
    unitWrites .rle4 (.rle4Delta 2 255) 0 [] 4 (2 ^ 32 - 1) 255 (rleAt .rle4 [0, 2, 2, 255] 0 (2 ^ 32 - 2) 0 8)
      = true := by
  decide

theorem test_meets_RleDecodeEnds :
    (rleAt .rle8 [3, 5] 0 0 0 8).inv = true ∧ (rleAt .rle8 [3, 5] 0 0 0 8).running .decRle8 .d8 = true ∧
    (rleAt .rle4 [3, 5] 2 0 0 8).inv = true ∧ (rleAt .rle24 [3, 5, 1] 1 0 0 8).inv = true := by
  decide

theorem test_meets_EndOfInputAtBoundary :
    (rleAt .rle8 [3, 5] 2 3 0 8).eng.p.toNat = (rleAt .rle8 [3, 5] 2 3 0 8).cfg.inLen.toNat ∧
    (after (step (rleAt .rle8 [3, 5] 2 3 0 8)) fun t => t.status == { done := true, eobi := true, errcode := .none })
      = true ∧
    (after (step (rleAt .rle24 [] 0 0 0 8)) fun t => t.status == { done := true, eobi := true, errcode := .none })
      = true := by
  decide

/-! ### Group-3 codes (R203 to R209) -/

/-- The hypotheses of the statements about codes hold, and the code ends its operation with code c. -/
def codeEnds (i : Instr) (c : ErrCode) (s : State) : Bool :=
  s.running .decHuff .d1 && s.plat.races.isEmpty && decide (s.eng.q.toNat + t4Table.codeLength i ≤ 8 * s.cfg.inLen.toNat) &&
    after (exec i s) fun t => t.status.errcode == c && t.status.done && !t.busy && t.mem == s.mem

/-- The hypotheses hold, and the code leaves bytes bs at offset k of OUT, q, x, y and the waiting total. -/
def codeWrites (i : Instr) (k : Nat) (bs : List Byte) (q x y pend : Nat) (s : State) : Bool :=
  s.running .decHuff .d1 && s.plat.races.isEmpty && decide (s.eng.q.toNat + t4Table.codeLength i ≤ 8 * s.cfg.inLen.toNat) &&
    after (exec i s) fun t => bytesAt t (0x1000 + k) bs.length == bs && t.busy && t.eng.q.toNat == q &&
      t.pos.inPos.toNat == (q + 7) / 8 && t.pos.curX.toNat == x && t.pos.curY.toNat == y && t.eng.pend.toNat == pend

/-- The leading EOL has not been read. -/
def unstarted (s : State) : State := { s with eng := { s.eng with started := false } }

theorem test_meets_TerminatingCodes :
    codeEnds .wt3 .g3NoLeadingEol (unstarted (huffAt 16 8 0 0 0 0 .white)) = true ∧
    codeEnds .wt3 .widthOverflow (huffAt 16 8 0 14 0 0 .white) = true ∧
    codeEnds .wt3 .bufferOverflow (huffAt 16 8 0 0 2 0 .white) = true ∧
    codeEnds .wt3 .bufferOverflow (huffAt 16 5 0 13 1 0 .white) = true ∧
    codeWrites .wt3 4 [0, 0b00000111] 16 16 1 0 (huffAt 16 6 12 13 1 0 .white) = true ∧
    codeWrites .wt0 0 [] 8 16 2 0 (huffAt 16 8 0 16 2 0 .white) = true := by
  decide

/-- White pixels are 1 bits, black ones 0 bits, over what OUT held (R206 example, R209, R211). -/
theorem test_terminating_polarity :
    codeWrites .wt3 0 [0b11100000] 4 3 0 0 (huffAt 8 4 0 0 0 0 .white) = true ∧
    (let s := huffAt 8 4 0 3 0 0 .black
     codeWrites .bt3 0 [0b11100011] 2 6 0 0 { s with mem := s.mem.write 0x1000 0xFF }) = true := by
  decide

theorem test_terminating_waiting_total :
    codeWrites .wt2 6 [0xFF, 0xFF, 0b11000000] 4 66 0 0 (huffAt 200 28 0 0 0 64 .white) = true := by
  decide

theorem test_meets_MakeUpCodes :
    codeEnds .wm64 .g3NoLeadingEol (unstarted (huffAt 200 28 0 0 0 0 .white)) = true ∧
    codeEnds .bm64 .widthOverflow (huffAt 128 16 0 1 0 64 .black) = true ∧
    codeWrites .bm64 0 [] 10 0 0 128 (huffAt 128 16 0 0 0 64 .black) = true ∧
    codeWrites .xm1792 0 [] 11 0 0 1792 (huffAt 1800 4 0 0 0 0 .white) = true ∧
    codeWrites .xm1792 0 [] 11 0 0 1792 (huffAt 1792 4 0 0 0 0 .black) = true := by
  decide

/-- A Group-3 decoder between codes, by what EOL reads. -/
def eolAt (isStarted sawCode : Bool) (eolRun y pend : Nat) : State :=
  let s := huffAt 200 28 0 0 y pend .black
  { s with eng := { s.eng with started := isStarted, sawCode := sawCode, eolRun := .ofNat 3 eolRun } }

theorem test_meets_EolCode :
    codeEnds (.eol 0) .g3MakeupAtEol (eolAt true true 0 0 64) = true ∧
    (after (exec (.eol 4) (eolAt false false 0 0 0)) fun t => t.eng.started && t.eng.eolRun == 1 && t.eng.q == 16)
      = true ∧
    (after (exec (.eol 0) (eolAt true true 0 1 0)) fun t =>
      t.eng.y == 2 && t.pos.curY == 2 && t.eng.x == 0 && t.eng.color == .white && t.eng.eolRun == 1 && !t.eng.sawCode)
      = true ∧
    (after (exec (.eol 0) (eolAt true false 4 1 0)) fun t => t.eng.eolRun == 5 && t.busy && t.eng.y == 1) = true ∧
    (after (exec (.eol 0) (eolAt true false 5 1 0)) fun t =>
      t.status == { done := true, eobi := false, errcode := .none } && !t.busy && t.pos.inPos == 2) = true := by
  decide

theorem test_meets_Group3DecodeEnds :
    (huffAt 16 8 0 0 0 0 .white).inv = true ∧ (huffAt 16 8 16 16 2 0 .black).inv = true ∧
    (huffAt 16 8 0 0 0 0 .white).running .decHuff .d1 = true ∧ (huffAt 16 8 0 0 0 0 .white).g3 = t4Table := by
  decide

/-! ### Encoders (R282 to R290) -/

/-- The hypotheses hold, and the unit ends its operation with code c; memory and the progress registers stay (R401). -/
def emitEnds (i : Instr) (c : ErrCode) (s : State) : Bool :=
  (s.running .encRle8 .d8 || s.running .encRle4 .d4) && s.plat.races.isEmpty &&
    after (exec i s) fun t => t.status.errcode == c && t.status.done && !t.busy && t.mem == s.mem && t.pos == s.pos

/-- The hypotheses hold, and the unit leaves bytes bs at offset k of OUT, o, cnt and i. -/
def emitWrites (i : Instr) (k : Nat) (bs : List Byte) (o cnt item : Nat) (s : State) : Bool :=
  (s.running .encRle8 .d8 || s.running .encRle4 .d4) && s.plat.races.isEmpty &&
    after (exec i s) fun t => bytesAt t (0x1000 + k) bs.length == bs && t.eng.o.toNat == o &&
      t.pos.outPos.toNat == o && t.pos.curX.toNat == cnt && t.eng.cnt.toNat == cnt && t.eng.i.toNat == item

/-- Two rows of four pixels at 8 bpp. -/
def rows8 : List Byte := [7, 7, 7, 7, 5, 6, 9, 9]

/-- Two rows of five pixels at 4 bpp, their pad nibbles not 0. -/
def rows4 : List Byte := [0x12, 0x12, 0x3F, 0, 0x11, 0x11, 0x1F, 0]

/-- The first unit of a next row does not fit: the error leaves that row's pixel count, 0, in CUR_X (R57, R61, R401). -/
theorem test_next_row_first_unit_overflow :
    (after (Host.Core.run Sys2Proof.core 2 (encAt .encRle8 .d8 4 4 0 4 4 2 rows8)) fun t =>
      t.status.errcode == .bufferOverflow && t.pos == { inPos := 4, outPos := 4, curX := 0, curY := 1 }) = true := by
  decide

theorem test_meets_EmitRun :
    emitEnds (.encRun 4 7) .bufferOverflow (encAt .encRle8 .d8 4 3 0 0 0 2 rows8) = true ∧
    emitWrites (.encRun 4 7) 0 [4, 7] 2 4 4 (encAt .encRle8 .d8 4 2 0 0 0 0 rows8) = true ∧
    emitWrites (.encRun 5 0x11) 2 [5, 0x11] 4 5 3 (encAt .encRle4 .d4 5 4 1 0 0 2 rows4) = true := by
  decide

theorem test_meets_EmitAbs :
    emitEnds (.encAbs 3 [1, 2, 3]) .bufferOverflow (encAt .encRle8 .d8 4 5 0 0 0 0 rows8) = true ∧
    emitWrites (.encAbs 3 [1, 2, 3]) 0 [0, 3, 1, 2, 3, 0] 6 3 3 (encAt .encRle8 .d8 4 6 0 0 0 0 rows8) = true ∧
    emitWrites (.encAbs 5 [0x12, 0x34, 0x50]) 0 [0, 5, 0x12, 0x34, 0x50, 0] 6 5 3
      (encAt .encRle4 .d4 5 6 0 0 0 0 rows4) = true := by
  decide

theorem test_meets_EmitShort :
    emitEnds (.encShort 2 7 none) .bufferOverflow (encAt .encRle8 .d8 4 1 0 0 0 0 rows8) = true ∧
    emitWrites (.encShort 2 7 none) 0 [2, 7] 2 2 2 (encAt .encRle8 .d8 4 2 0 0 0 0 rows8) = true ∧
    emitWrites (.encShort 1 0x30 none) 0 [1, 0x30] 2 5 3 (encAt .encRle4 .d4 5 2 0 2 4 0 rows4) = true ∧
    emitEnds (.encShort 1 5 (some 6)) .bufferOverflow (encAt .encRle8 .d8 4 1 1 0 0 0 rows8) = true ∧
    emitEnds (.encShort 1 5 (some 6)) .bufferOverflow (encAt .encRle8 .d8 4 3 1 0 0 0 rows8) = true ∧
    emitWrites (.encShort 1 5 (some 6)) 0 [1, 5, 1, 6] 4 2 2 (encAt .encRle8 .d8 4 4 1 0 0 0 rows8) = true := by
  decide

theorem test_meets_EmitRowEnd :
    emitEnds .encEol .encCountMismatch (encAt .encRle8 .d8 4 8 0 0 3 0 rows8) = true ∧
    emitEnds .encEob .encCountMismatch (encAt .encRle8 .d8 4 8 0 0 3 0 rows8) = true ∧
    emitEnds .encEol .bufferOverflow (encAt .encRle8 .d8 4 3 0 4 4 2 rows8) = true ∧
    emitEnds .encEob .bufferOverflow (encAt .encRle8 .d8 4 3 1 4 4 2 rows8) = true ∧
    (after (exec .encEol (encAt .encRle4 .d4 5 4 0 3 5 2 rows4)) fun t => bytesAt t 0x1002 2 == [0, 0] && t.eng.o == 4 &&
      t.eng.r == 1 && t.eng.i == 0 && t.eng.cnt == 0 && t.pos.inPos == 4 && t.pos.curX == 0 && t.pos.curY == 1) = true ∧
    (after (exec .encEol (encAt .encRle8 .d8 4 4 0 4 4 2 rows8)) fun t =>
      bytesAt t 0x1002 2 == [0, 0] && t.eng.r == 1 && t.eng.i == 0 && t.eng.cnt == 0 && t.pos.inPos == 4) = true ∧
    (after (exec .encEob (encAt .encRle8 .d8 4 4 1 4 4 2 rows8)) fun t =>
      bytesAt t 0x1002 2 == [0, 1] && t.status == { done := true, eobi := false, errcode := .none } &&
        t.pos.inPos == 8 && t.pos.outPos == 4) = true := by
  decide

/-- R286, R288: a run of four; a short literal of two before a pair that starts no run of three. -/
theorem test_meets_ChooseRle8 :
    (encAt .encRle8 .d8 4 8 0 0 0 0 rows8).running .encRle8 .d8 = true ∧
    (encAt .encRle8 .d8 4 8 0 0 0 0 rows8).plat.races = [] ∧
    (encAt .encRle8 .d8 4 8 0 0 0 0 rows8).nextUnit = .encRun 4 7 ∧
    (encAt .encRle8 .d8 4 8 1 0 0 0 rows8).nextUnit = .encAbs 4 [5, 6, 9, 9] ∧
    (encAt .encRle8 .d8 4 8 1 2 2 0 rows8).nextUnit = .encShort 2 9 none ∧
    (encAt .encRle8 .d8 4 8 1 3 3 0 rows8).nextUnit = .encShort 1 9 none ∧
    (encAt .encRle8 .d8 5 8 0 0 0 0 [5, 6, 9, 9, 9, 0, 0, 0, 0, 0, 0, 0, 0, 0, 0, 0]).nextUnit =
      .encShort 1 5 (some 6) := by
  decide

/-- R284, R285: a run of two bytes, a single byte of an odd row's end, and a run into the trimmed last byte. -/
theorem test_meets_ChooseRle4 :
    (encAt .encRle4 .d4 5 8 0 0 0 0 rows4).running .encRle4 .d4 = true ∧
    (encAt .encRle4 .d4 5 8 0 0 0 0 rows4).plat.races = [] ∧
    (encAt .encRle4 .d4 5 8 0 0 0 0 rows4).nextUnit = .encRun 4 0x12 ∧
    (encAt .encRle4 .d4 5 8 0 2 4 0 rows4).nextUnit = .encShort 1 0x30 none ∧
    (encAt .encRle4 .d4 5 8 0 1 2 0 rows4).nextUnit = .encAbs 3 [0x12, 0x30] ∧
    (encAt .encRle4 .d4 5 8 1 0 0 0 rows4).nextUnit = .encRun 4 0x11 := by
  decide

theorem test_meets_EmittedUnitsDecode :
    (encAt .encRle8 .d8 4 8 0 3 3 0 rows8).running .encRle8 .d8 = true ∧
    (encAt .encRle8 .d8 4 8 0 3 3 0 rows8).eng.i.toNat < 4 ∧
    (encAt .encRle4 .d4 5 8 0 2 4 0 rows4).running .encRle4 .d4 = true ∧
    (encAt .encRle4 .d4 5 8 0 2 4 0 rows4).eng.i.toNat < 3 := by
  decide

theorem test_meets_CountMismatchNever :
    (encAt .encRle4 .d4 5 8 0 3 5 0 rows4).inv = true ∧
    (after (step (encAt .encRle4 .d4 5 8 0 3 5 0 rows4)) fun t => t.eng.r == 1) = true := by
  decide

theorem test_meets_EncoderFits :
    (encAt .encRle8 .d8 4 20 1 3 3 16 rows8).inv = true ∧
    2 * (2 * 4 + 2) ≤ (encAt .encRle8 .d8 4 20 1 3 3 16 rows8).cfg.outLen.toNat ∧
    (encAt .encRle8 .d8 4 20 1 3 3 16 rows8).eng.o.toNat ≤ 1 * (2 * 4 + 2) + 2 * 3 ∧
    (after (step (encAt .encRle8 .d8 4 20 1 3 3 16 rows8)) fun t => t.busy && t.eng.o == 18) = true ∧
    (started 9 2 8 0x1000).eng.phase = .start ∧
    (after (step (started 9 2 8 0x1000)) fun t => t.running .encRle8 .d8 && t.eng.o == 0) = true := by
  decide

theorem test_meets_EncodeEnds :
    (encAt .encRle8 .d8 4 20 0 0 0 0 rows8).inv = true ∧ (encAt .encRle8 .d8 4 20 0 0 0 0 rows8).running .encRle8 .d8 = true ∧
    (encAt .encRle4 .d4 5 0 1 3 5 0 rows4).inv = true := by
  decide

/-! ### The unpacker (R331 to R339) -/

/-- Flags with OUTFMT and A32 as given. -/
def pixFlags (palfmt outfmt a32 : Bool) : CmdFlags := { palfmt := palfmt, outfmt := outfmt, a32 := a32, irqEn := false }

/-- The hypotheses hold, and the pixel is stored as bs at offset k of OUT. -/
def pixStores (d : Depth) (i : Instr) (k : Nat) (bs : List Byte) (s : State) : Bool :=
  s.running .unpack d && s.plat.races.isEmpty && s.inv &&
    after (exec i s) fun t => bytesAt t (0x1000 + k) bs.length == bs && t.status.errcode == .none

theorem test_meets_IndexedPixels :
    pixStores .d1 (.pix1 0b10111111) 3 [0, 0, 0] (pixAt .d1 (pixFlags false false false) 2 0 1 (List.replicate 8 0)) = true ∧
    pixStores .d1 (.pix1 0b01000000) 4 [3, 2, 1, 255] (pixAt .d1 (pixFlags true true false) 0 0 1 (List.replicate 8 0))
      = true ∧
    pixStores .d4 (.pix4 1 2) 0 [2, 1, 0] (pixAt .d4 (pixFlags false false false) 0 0 0 (List.replicate 8 0)) = true ∧
    pixStores .d4 (.pix4 1 2) 3 [5, 4, 3] (pixAt .d4 (pixFlags false false false) 3 0 1 (List.replicate 8 0)) = true ∧
    pixStores .d8 (.pix8 3) 8 [11, 10, 9, 255] (pixAt .d8 (pixFlags true true false) 4 1 0 (List.replicate 8 0)) = true ∧
    (after (exec (.pix8 4) (pixAt .d8 (pixFlags true true false) 4 1 0 (List.replicate 8 0))) fun t =>
      t.status.errcode == .palIndexRange && t.pos.outPos == 8) = true ∧
    (after (exec (.pix4 1 2) (pixAt .d4 (pixFlags true true false) 2 0 1 (List.replicate 8 0))) fun t =>
      t.status.errcode == .palIndexRange) = true ∧
    (after (exec (.pix1 0x40) (pixAt .d1 (pixFlags true true false) 1 0 1 (List.replicate 8 0))) fun t =>
      t.status.errcode == .palIndexRange) = true := by
  decide

/-- Even and odd pixels of a byte at 4 bpp (R336). -/
theorem test_pix4_nibbles :
    pixStores .d4 (.pix4 1 2) 0 [3, 2, 1, 255] (pixAt .d4 (pixFlags true true false) 0 0 0 (List.replicate 8 0)) = true ∧
    pixStores .d4 (.pix4 1 2) 4 [7, 6, 5, 255] (pixAt .d4 (pixFlags true true false) 3 0 1 (List.replicate 8 0)) = true := by
  decide

theorem test_meets_DirectPixels :
    pixStores .d24 (.pix24 0 0 255) 3 [255, 0, 0] (pixAt .d24 (pixFlags false false false) 0 0 1 (List.replicate 16 0)) = true ∧
    pixStores .d24 (.pix24 1 2 3) 8 [3, 2, 1, 255] (pixAt .d24 (pixFlags false true true) 0 1 0 (List.replicate 16 0)) = true ∧
    pixStores .d32 (.pix32 1 2 3 128) 0 [3, 2, 1, 128] (pixAt .d32 (pixFlags false true true) 0 0 0 (List.replicate 16 0))
      = true ∧
    pixStores .d32 (.pix32 1 2 3 128) 0 [3, 2, 1, 255] (pixAt .d32 (pixFlags false true false) 0 0 0 (List.replicate 16 0))
      = true := by
  decide

theorem test_meets_PixelPositions :
    (pixAt .d24 noFlags 0 0 0 (List.replicate 16 0)).running .unpack .d24 = true ∧
    ((pixAt .d24 noFlags 0 0 0 (List.replicate 16 0)).nextPixel .d24).eng.x = 1 ∧
    ((pixAt .d24 noFlags 0 0 1 (List.replicate 16 0)).nextPixel .d24).eng.y = 0 ∧
    ((pixAt .d24 noFlags 0 1 1 (List.replicate 16 0)).nextPixel .d24).pos =
      { inPos := 16, outPos := 12, curX := 1, curY := 1 } := by
  decide

theorem test_meets_UnpackEndsExactly :
    (pixAt .d24 noFlags 0 1 1 (List.replicate 16 0)).inv = true ∧
    (pixAt .d24 noFlags 0 1 1 (List.replicate 16 0)).running .unpack .d24 = true ∧
    (pixAt .d32 noFlags 0 0 0 (List.replicate 16 0)).inv = true ∧
    (after (step (pixAt .d24 noFlags 0 1 1 (List.replicate 16 0))) fun t => t.status.done && t.pos.outPos == 12) = true := by
  decide

/-- An indexed unpack that reaches its last pixel, and one that stops at a pixel before it. -/
theorem test_meets_UnpackEndsExactly_indexed :
    (pixAt .d8 noFlags 4 1 1 (List.replicate 8 0)).inv = true ∧
    (pixAt .d8 noFlags 4 1 1 (List.replicate 8 0)).running .unpack .d8 = true ∧
    (after (step (pixAt .d8 noFlags 4 1 1 (List.replicate 8 0))) fun t =>
      t.status == { done := true, eobi := false, errcode := .none } && t.pos.outPos == 12) = true ∧
    (after (step (pixAt .d8 noFlags 4 0 0 (List.replicate 8 9))) fun t =>
      t.status == { done := true, eobi := false, errcode := .palIndexRange } && t.pos.outPos == 0) = true := by
  decide

/-! ### Encodings: terms that meet the hypotheses -/

theorem test_meets_DecodeOfEncode :
    Instr.wellFormed (.rle8Abs 3 [1, 2, 3]) = true ∧ Instr.wellFormed (.rle4Run 255 15 0) = true ∧
    Instr.wellFormed (.encAbs 254 (List.replicate 127 7)) = true ∧ Instr.wellFormed (.eol 9) = true := by
  decide

theorem test_meets_UnitInStream :
    Instr.wellFormed (.rle24Abs 3 [1, 2, 3, 4, 5, 6, 7, 8, 9]) = true ∧
    (Instr.rle24Abs 3 [1, 2, 3, 4, 5, 6, 7, 8, 9]).context = .rle .rle24 := by
  decide

theorem test_meets_DecodedWellFormed : reads .emit4 (.bytes [0, 5, 1, 2, 3, 0]) (.encAbs 5 [1, 2, 3]) = true := by decide

/-- The decoder's answer, by its kind. -/
def isTruncated : Except Reject (Instr × List Byte) → Bool
  | .error .truncated => true
  | _ => false

/-- The decoder leaves n bytes. -/
def leaves (n : Nat) : Except Reject (Instr × List Byte) → Bool
  | .ok (_, rest) => rest.length == n
  | .error _ => false

theorem test_meets_UnitLengthFromHead :
    leaves 0 (decodeUnit .rle24 [1, 2, 3, 4]) = true ∧ isTruncated (decodeUnit .rle24 [1, 2, 3]) = true ∧
    leaves 0 (decodeUnit .rle8 [0, 3, 1, 2, 3, 0]) = true ∧ isTruncated (decodeUnit .rle8 [0, 3, 1, 2, 3]) = true ∧
    leaves 1 (decodeUnit .rle4 [0, 3, 1, 2, 3]) = true ∧ isTruncated (decodeUnit .rle4 [0, 3, 1]) = true ∧
    leaves 0 (decodeUnit .rle8 [0, 2, 1, 2]) = true ∧ isTruncated (decodeUnit .rle8 [0, 2, 1]) = true := by
  decide

theorem test_meets_CommandWordFields :
    (0xFFFEC01F : Word) &&& 0x00013FF1 = (0x00000011 : Word) &&& 0x00013FF1 ∧ (0x10 : Word).getLsbD 0 = false := by
  decide

/-- The Group-3 decoder's rejection, by its kind. -/
def codeRejected (r : Reject) : Except Reject (Instr × List Bool) → Bool
  | .ok _ => false
  | .error e => decide (e = r)

theorem test_meets_CodeTableProperties :
    reads (.g3 .black) (.code (List.replicate 12 false ++ [true])) (.eol 1) = true ∧
    codeRejected .badCode (decodeCode t4Table .white (List.replicate 10 false ++ [true])) = true := by
  decide

theorem test_meets_ReadCodeExact :
    codeRejected .truncated (decodeCode t4Table .white [false, false, true, true, false, true, false]) = true ∧
    codeRejected .badCode (decodeCode t4Table .black (List.replicate 8 false ++ [true])) = true ∧
    codeRejected .truncated (decodeCode t4Table .black (List.replicate 20 false)) = true := by
  decide

/-! ### Steps -/

theorem test_meets_StepRunsDecoded_command :
    (started 1 2 0 8).turn (started 1 2 0 8) ∧
    reads .command (.command ((started 1 2 0 8).ctrlWord ||| 1)) (.decRle8 .d8 noFlags) = true ∧
    (started 1 2 0 8).eng.phase = .start :=
  ⟨⟨rfl, .inl ⟨rfl, rfl⟩⟩, by decide, rfl⟩

theorem test_meets_StepRunsDecoded_turn :
    (pending (rleAt .rle8 [3, 5] 0 0 0 8) [.engine, .readMem 0]).turn (pending (rleAt .rle8 [3, 5] 0 0 0 8) [.readMem 0]) :=
  ⟨rfl, .inr ⟨_, rfl, rfl⟩⟩

theorem test_meets_StepRunsDecoded_streams :
    leaves 0 (decodeUnit .rle8 ((rleAt .rle8 [3, 5] 0 0 0 8).inBytes 0 2)) = true ∧
    (rleAt .rle8 [3, 5] 0 0 0 8).eng.p.toNat < (rleAt .rle8 [3, 5] 0 0 0 8).cfg.inLen.toNat ∧
    (rleAt .rle8 [3, 5] 0 0 0 8).running .decRle8 .d8 = true ∧
    (bodyOf .decHuff .d1 [0x80, 0] 16 2 8).running .decHuff .d1 = true ∧
    (match decodeCode t4Table .white ((bodyOf .decHuff .d1 [0x80, 0] 16 2 8).inBits 0 16) with
      | .ok (i, _) => decide (i = .wt3) | .error _ => false) = true ∧
    (pixAt .d24 noFlags 0 0 0 (List.replicate 16 0)).running .unpack .d24 = true ∧
    leaves 0 (decodePixel .d24 ((pixAt .d24 noFlags 0 0 0 (List.replicate 16 0)).inBytes 8 3)) = true ∧
    (encAt .encRle8 .d8 4 8 0 0 0 0 rows8).running .encRle8 .d8 = true := by
  decide

theorem test_meets_StepWithoutInstruction :
    isTruncated (decodeUnit .rle8 ((rleAt .rle8 [0, 3, 1] 0 0 0 8).inBytes 0 3)) = true ∧
    (after (step (rleAt .rle8 [0, 3, 1] 0 0 0 8)) fun t => t.status.errcode == .truncated) = true ∧
    codeRejected .badCode (decodeCode t4Table .white ((bodyOf .decHuff .d1 [0x00, 0x80] 16 2 8).inBits 0 16)) = true ∧
    (after (step (bodyOf .decHuff .d1 [0x00, 0x80] 16 2 8)) fun t => t.status.errcode == .g3BadCode) = true ∧
    (after (step (bodyOf .decHuff .d1 [0x00, 0x00] 16 2 8)) fun t => t.status.errcode == .truncated) = true := by
  decide

theorem test_calm : (rleAt .rle8 [3, 5] 0 0 0 8).calm := ⟨rfl, rfl, rfl⟩

theorem test_meets_IdleStays :
    State.reset.plat.inputs = [] ∧ State.reset.eng.phase = .idle ∧
    (State.assertReset (rleAt .rle8 [3, 5] 0 0 0 8)).plat.inReset = true ∧
    (State.assertReset (rleAt .rle8 [3, 5] 0 0 0 8)).plat.inputs = [] := by
  decide

/-! ### Command words -/

/-- The configuration of `started`. -/
def cfg42 (inLen outLen : Word) : Cfg :=
  { width := 4, height := 2, inBase := 0x2000, inLen := inLen, outBase := 0x1000, outLen := outLen, palBase := 0x4000,
    palCount := 0 }

theorem not_shareByte {b n b' n' : Nat} (h : b + n ≤ b' ∨ b' + n' ≤ b) : ¬ shareByte b n b' n' := by
  rintro ⟨a, ⟨_, _⟩, _, _⟩
  omega

/-- Legal set-ups: every check of 3 to 8 passes; OUT may be empty, or end where IN begins. -/
theorem test_setupLegal_decoder :
    SetupLegal .decRle8 .d8 noFlags (cfg42 0 8) ∧ SetupLegal .decRle8 .d8 noFlags (cfg42 0 0) ∧
    SetupLegal .decRle8 .d8 noFlags (cfg42 1 0x1000) := by
  refine ⟨?_, ?_, ?_⟩ <;>
    exact ⟨fun b hb => by injection hb, by decide, by decide, by decide, by decide, by decide, by decide,
      not_shareByte (by decide), fun hp => absurd hp (by decide), by decide⟩

theorem test_setupLegal_encoder :
    SetupLegal .encRle8 .d8 noFlags (cfg42 8 0x1000) ∧ SetupLegal .encRle8 .d8 noFlags (cfg42 7 0x1000) := by
  refine ⟨?_, ?_⟩ <;>
    exact ⟨fun b hb => by injection hb, by decide, by decide, by decide, by decide, by decide, by decide,
      not_shareByte (by decide), fun hp => absurd hp (by decide), by decide⟩

theorem test_setupLegal_unpack : SetupLegal .unpack .d8 noFlags (cfg42 8 24) := by
  refine ⟨?_, by decide, by decide, by decide, by decide, by decide, by decide, not_shareByte ?_, fun _ => not_shareByte ?_,
    by decide⟩
  · intro b hb
    cases hb
  · exact .inl (by decide)
  · exact .inl (by decide)

/-- Check 9 at its boundary: S·H = 8 input bytes, and one fewer. -/
theorem test_meets_StartChecks :
    InputCovers .encRle8 .d8 (cfg42 8 0x1000) ∧ ¬ InputCovers .encRle8 .d8 (cfg42 7 0x1000) ∧
    ¬ SetupLegal .decRle8 .d8 noFlags { cfg42 0 8 with width := 0 } ∧
    ¬ SetupLegal .decRle8 .d1 noFlags (cfg42 0 8) := by
  refine ⟨fun _ => by decide, fun h => absurd (h (.inr (.inl rfl))) (by decide), fun h => absurd h.2.1.1 (by decide),
    fun h => ?_⟩
  have := h.1 .d8 rfl
  cases this

/-- A decoder with bytes to fill, one with none, an encoder and the unpacker meet the hypotheses of CommandEnters. -/
theorem test_meets_CommandEnters :
    (started 1 2 0 8).eng.phase = .start ∧ (started 1 2 0 8).cfg = cfg42 0 8 ∧ (started 1 2 0 0).cfg = cfg42 0 0 ∧
    InputCovers .decRle8 .d8 (cfg42 0 8) ∧ InputCovers .unpack .d8 (cfg42 8 24) ∧
    (after (exec (.decRle8 .d8 noFlags) (started 1 2 0 8)) fun t => t.eng.phase == .fill 0) = true ∧
    (after (exec (.decRle8 .d8 noFlags) (started 1 2 0 0)) fun t => t.eng.phase == .body) = true := by
  refine ⟨by decide, by decide, by decide, ?_, fun _ => by decide, by decide, by decide⟩
  intro h
  rcases h with h | h | h <;> cases h

theorem test_meets_CommandFails :
    (started 5 0 0 8).eng.phase = .start ∧ (started 5 0 0 8).plat.races = [] ∧
    (after (exec (.reservedOp5 0 noFlags) (started 5 0 0 8)) fun t => t.status.errcode == .unsupported) = true ∧
    (after (exec (.reservedBpp7 .unpack noFlags) (started 0 7 0 8)) fun t => t.status.errcode == .unsupported) = true ∧
    (after (exec (.decRle8 .d1 noFlags) (started 1 0 0 8)) fun t => t.status.errcode == .badConfig) = true ∧
    (after (exec (.encRle8 .d8 noFlags) (started 9 2 7 8)) fun t => t.status.errcode == .truncated) = true := by
  decide

/-- The first step initialises a Group-3 decode, whatever the engine held before (R61, R200); its fill keeps that. -/
theorem test_meets_ZeroFillWritesOut_huff :
    (let s := huffAt 16 1 9 3 1 5 .black
     let s := { s with eng := { s.eng with phase := .start, sawCode := true, eolRun := 5 }, pos := .zero }
     let begun := fun t : State => t.eng.q == 0 && t.eng.color == .white && !t.eng.started && !t.eng.sawCode &&
       t.eng.eolRun == 0 && t.eng.pend == 0 && t.eng.x == 0 && t.eng.y == 0 && t.inv
     (after (Host.Core.run Sys2Proof.core 1 s) fun t => t.eng.phase == .fill 0 && begun t) &&
       after (Host.Core.run Sys2Proof.core 2 s) fun t => t.eng.phase == .body && begun t) = true := by
  decide

/-- Checks and a zero-fill of eight bytes, over an old byte of OUT and one past its end; and an empty fill (`cfg42 0 8` and
`cfg42 0 0` are legal by `test_setupLegal_decoder`). -/
theorem test_meets_ZeroFillWritesOut :
    (let s := started 1 2 0 8
     let s := { s with eng := { s.eng with p := 7, x := 3, y := 1 }, mem := s.mem.writeList 0x1007 [7, 7] }
     (s.ctrl.op == Operation.decRle8.code && s.ctrl.bpp == Depth.d8.code && s.cfg == cfg42 0 8) &&
       (after (Host.Core.run Sys2Proof.core 8 s) fun t => t.eng.phase == .fill 7 && t.eng.p == 0 && t.eng.x == 0 &&
         t.eng.y == 0 && t.memByte 0x1007 == 7 && t.inv) &&
       after (Host.Core.run Sys2Proof.core 9 s) fun t => t.eng.phase == .body && t.memByte 0x1007 == 0 &&
         t.memByte 0x1008 == 7 && t.inv) = true ∧
    (after (Host.Core.run Sys2Proof.core 1 (started 1 2 0 0)) fun t => t.eng.phase == .body) = true := by
  decide

/-! ### The register window and the host -/

/-- An idle block with everything set. -/
def busyless : State :=
  { State.reset with
    ctrl := { op := 3, bpp := 0, flags := allFlags }, status := { done := true, eobi := true, errcode := .badConfig } }

/-- An idle block whose last operation's end the host has not observed: OUT is the 8 bytes from 0x1000. -/
def unobserved : State := { busyless with plat := { busyless.plat with unseen := [{ base := 0x1000, len := 8 }] } }

theorem test_meets_CtrlWrite :
    (after (step (pending busyless [.writeReg 0x00 4 0xFFFFFFFF])) fun t =>
      t.busy && t.ctrlWord == 0x00013FF0 && t.status == .zero) = true ∧
    (after (step (pending busyless [.writeReg 0x00 4 0x10])) fun t =>
      !t.busy && t.ctrlWord == 0x10 && t.status.done) = true ∧
    (after (step (pending (rleAt .rle8 [3, 5] 0 0 0 8) [.writeReg 0x00 4 0x1])) fun t => t.ctrl.op == 1) = true := by
  decide

/-- STATUS of an idle block after an error, with its four flags and code (R45). -/
theorem test_status_word : busyless.statusWord = 0x00000A0E ∧ (rleAt .rle8 [3, 5] 0 0 0 8).statusWord = 1 := by decide

theorem test_meets_RegisterRead :
    (after (step (pending busyless [.readReg 0x04 4])) fun t => t.plat.readData == 0xA0E) = true ∧
    (after (step (pending busyless [.readReg 0xFC 4])) fun t => t.plat.readData == 0) = true ∧
    (after (step (pending busyless.assertReset [.readReg 0x04 4])) fun t => t.plat.readData == 0) = true ∧
    (after (step (pending unobserved [.readReg 0x04 4])) fun t => t.plat.unseen.isEmpty) = true ∧
    (after (step (pending unobserved [.readReg 0x2C 4])) fun t => t.plat.unseen == unobserved.plat.unseen) = true := by
  decide

theorem test_meets_RegisterWrite :
    (after (step (pending busyless [.writeReg 0x08 4 9])) fun t => t.cfg.width == 9 && t.cfg.height == 0) = true ∧
    (after (step (pending busyless [.writeReg 0x24 4 9])) fun t => t.cfg.palCount == 9) = true ∧
    (after (step (pending busyless [.writeReg 0x28 4 9])) fun t => t.pos == .zero && t.cfg == .zero) = true := by
  decide

theorem test_meets_StatusWrite :
    (after (step (pending busyless [.writeReg 0x04 4 2])) fun t =>
      t.status == { done := false, eobi := true, errcode := .badConfig }) = true ∧
    (after (step (pending busyless [.writeReg 0x04 4 0xFFFFFFFD])) fun t => t.status == busyless.status) = true ∧
    (pending (rleAt .rle8 [3, 5] 0 0 0 8) [.writeReg 0x04 4 2]).inv = true ∧
    (after (step (pending busyless [.writeReg 0x00 4 0x30])) fun t =>
      t.status == { done := true, eobi := true, errcode := .badConfig }) = true := by
  decide

theorem test_meets_ConfigConstantWhileBusy :
    (rleAt .rle8 [3, 5] 0 0 0 8).busy = true ∧
    (after (step (pending (rleAt .rle8 [3, 5] 0 0 0 8) [.writeReg 0x08 4 9])) fun t => t.cfg.width == 4) = true ∧
    (after (step (pending (rleAt .rle8 [3, 5] 0 0 0 8) [.readReg 0x08 4])) fun t => t.plat.readData == 4) = true := by
  decide

theorem test_meets_RegisterAccessShape :
    (match step (pending busyless [.readReg 0x01 4]) with | .refused r => decide (r = .registerAccessShape) | _ => false)
      = true ∧
    (match step (pending busyless [.writeReg 0x08 2 1]) with | .refused r => decide (r = .registerAccessShape) | _ => false)
      = true ∧
    (after (step (pending busyless [.readReg 0xFC 4])) fun _ => true) = true := by
  decide

theorem test_meets_CompletionInterrupt :
    busyless.irq = true ∧ busyless.busy = false ∧ (0x10001 : Word).getLsbD 0 = true ∧
    (busyless.writeCtrl 0x10001).irq = false ∧ (busyless.writeCtrl 0x10000).irq = true ∧
    (busyless.writeCtrl 0).irq = false := by
  decide

theorem test_meets_ResetEvent :
    (after (Host.Core.run Sys2Proof.core 4
        (pending (rleAt .rle8 [3, 5] 0 0 0 8) [.reset true, .writeReg 0x08 4 9, .engine, .reset false]))
      fun t => !t.busy && t.cfg == .zero && !t.plat.inReset && t.mem == (rleAt .rle8 [3, 5] 0 0 0 8).mem) = true := by
  decide

theorem test_meets_HostMemoryAccess :
    (after (step (pending (rleAt .rle8 [3, 5] 0 0 0 8) [.writeMem 0x1008 9])) fun t =>
      t.memByte 0x1008 == 9 && t.plat.races.isEmpty) = true ∧
    (after (step (pending State.reset [.writeMem 0xFFFFFFFF 9])) fun t => t.memByte 0xFFFFFFFF == 9) = true ∧
    (after (step (pending unobserved [.writeMem 0x1008 9])) fun t => t.memByte 0x1008 == 9) = true ∧
    (after (step (pending (rleAt .rle8 [3, 5] 0 0 0 8) [.readMem 0x2001])) fun t => t.plat.readData == 5) = true := by
  decide

theorem test_meets_BreachGivesDraws :
    (rleAt .rle8 [3, 5] 0 0 0 8).busy = true ∧ (rleAt .rle8 [3, 5] 0 0 0 8).inIn 0x2001 = true ∧
    (rleAt .rle8 [3, 5] 0 0 0 8).inOut 0x1007 = true ∧ (rleAt .rle8 [3, 5] 0 0 0 8).inOut 0x1008 = false ∧
    (pixAt .d8 noFlags 0 0 0 (List.replicate 8 0)).inPal 0x4000 = true ∧
    (after (step (pending (rleAt .rle8 [3, 5] 0 0 0 8) [.writeMem 0x2001 9])) fun t => t.plat.races == [0x2001]) = true := by
  decide

/-- A byte of OUT written while BUSY stays raced through a unit, and the end of the operation settles it with a new number. -/
theorem test_meets_BreachGivesDraws_raced :
    (let s := pending (rleAt .rle8 [3, 5] 0 0 0 8) [.writeMem 0x1007 9]
     (after (Host.Core.run Sys2Proof.core 2 s) fun t => t.busy && t.raced 0x1007 && t.inOut 0x1007 && t.plat.draws == 1) &&
       after (Host.Core.run Sys2Proof.core 3 s) fun t => !t.busy && t.plat.races.isEmpty && t.plat.draws == 3) = true := by
  decide

/-- After the end: the first and last byte of OUT are lent until the host sees the interrupt (R460). -/
theorem test_meets_BreachGivesDraws_unobserved :
    unobserved.unseenOut 0x1000 = true ∧ unobserved.unseenOut 0x1007 = true ∧ unobserved.unseenOut 0x1008 = false ∧
    unobserved.irq = true ∧
    (after (step (rleAt .rle8 [3, 5] 2 3 0 8)) fun t => t.unseenOut 0x1007) = true ∧
    (after (step (pending unobserved [.readMem 0x1007])) fun t => t.plat.draws == 1) = true ∧
    (after (step (pending unobserved [.writeMem 0x1007 9])) fun t => t.plat.draws == 1) = true ∧
    (after (step (pending unobserved [.readIrq])) fun t => t.plat.readData == 1 && t.plat.unseen.isEmpty) = true := by
  decide

/-! ### The whole machine -/

theorem test_meets_InvariantKept :
    (started 1 2 0 8).inv = true ∧ (rleAt .rle8 [3, 5] 0 0 0 8).inv = true ∧ (huffAt 16 8 0 0 0 0 .white).inv = true ∧
    (encAt .encRle8 .d8 4 8 0 0 0 0 rows8).inv = true ∧ (pixAt .d8 noFlags 0 1 1 (List.replicate 8 0)).inv = true ∧
    (after (step (rleAt .rle8 [3, 5] 0 0 0 8)) fun t => t.inv) = true := by
  decide

theorem test_meets_MemoryFormKept :
    (rleAt .rle8 [3, 5] 0 0 0 8).memOk = true ∧ (after (step (rleAt .rle8 [3, 5] 0 0 0 8)) fun t => t.memOk) = true := by
  decide

/-- A memory out of its order, one with an address twice, and one past the top are not in the form. -/
theorem test_memory_form_refuses :
    Memory.wf [(2, 0), (1, 0)] = false ∧ Memory.wf [(1, 0), (1, 0)] = false ∧ Memory.wf [(2 ^ 32, 0)] = false := by
  decide

theorem test_meets_NeverStuck :
    (pending (rleAt .rle8 [3, 5] 0 0 0 8) [.readReg 0x02 4]).inv = true ∧
    (after (step (pending (rleAt .rle8 [3, 5] 0 0 0 8) [.readReg 0x02 4])) fun _ => true) = false := by
  decide

theorem test_meets_WritesOnlyOut :
    (after (exec (.rle8Run 3 5) (rleAt .rle8 [3, 5] 0 1 1 8)) fun t =>
      t.memByte 0x2000 == 3 && t.memByte 0x1007 == 5) = true ∧
    (rleAt .rle8 [3, 5] 0 1 1 8).inOut 0x2000 = false ∧
    (rleAt .rle8 [3, 5] 0 1 1 8).turn (rleAt .rle8 [3, 5] 0 1 1 8) := by
  refine ⟨by decide, by decide, rfl, .inl ⟨rfl, rfl⟩⟩

/-- A START raises BUSY; the last unit's end of input raises DONE and EOBI and lowers BUSY; an acknowledgement lowers DONE. -/
theorem test_meets_FlagsChangeOnlyBy :
    busyless.inv = true ∧
    (after (step (pending busyless [.writeReg 0x00 4 0x211])) fun t => t.busy && !t.status.done) = true ∧
    (after (step (rleAt .rle8 [3, 5] 2 3 0 8)) fun t => !t.busy && t.status.done && t.status.eobi) = true ∧
    (after (step (pending busyless [.writeReg 0x04 4 2])) fun t => !t.status.done) = true ∧
    busyless.status.eobi = true ∧
    (after (step (pending busyless [.writeReg 0x00 4 0x211])) fun t => !t.status.eobi) = true := by
  decide

end Sys2Proof.Tests
end

section
/-!
PROOF. Only OUT is written: no instruction and no turn of the engine changes the configuration or a byte outside OUT,
and no step changes G3_TABLE (spec/20_memory.md R81, spec/10_state.md R60, spec/00_scope.md R6). The meaning of every
instruction has one of a few forms (`ExecForm`); each form keeps the relation `State.OnlyOut`.
-/

namespace Sys2Proof.Machine

/-! ### The forms of an instruction's meaning -/

/-- The effects of the run codes of a Group-3 table. -/
inductive CodeEffect : (State → Except ErrCode State) → Prop
  | terminating (n : Nat) : CodeEffect (terminateRun n)
  | makeUp (n : Nat) : CodeEffect (makeUpRun n)

/-- Emitting one unit of a row: the unit's bytes, then the cursor past its pixels, or BUFFER_OVERFLOW
(spec/43_rle_encode.md R282). -/
def State.emitUnit (s : State) (u : List Byte) (pixels items : Nat) : Host.Outcome State Fault Refusal :=
  s.withinEncoder
    (match s.emit u with
    | none => s.raise .bufferOverflow
    | some t => t.cover pixels items)

theorem execEncRun_eq (c v : Byte) (s : State) :
    execEncRun c v s = s.emitUnit [c, v] c.toNat (s.runItems c.toNat) := rfl

theorem execEncAbs_eq (n : Byte) (data : List Byte) (s : State) :
    execEncAbs n data s = s.emitUnit (absBytes n data) n.toNat data.length := rfl

/-- The second run of a short literal, if it has one (spec/43_rle_encode.md R288). -/
def shortSecond : Option Byte → List Byte
  | none => []
  | some w => [1, w]

theorem execEncShort_eq (c v : Byte) (w : Option Byte) (s : State) :
    execEncShort c v w s = s.emitUnit ([c, v] ++ shortSecond w) (c.toNat + (shortSecond w).length / 2)
      (s.runItems (c.toNat + (shortSecond w).length / 2)) := by
  cases w <;> rfl

/-- Everything an emitted unit of a row can do. -/
theorem State.emitUnit_cases {s t : State} {u : List Byte} {pixels items : Nat}
    (h : s.emitUnit u pixels items = .next t) :
    t = s.raise .bufferOverflow ∨ ∃ e, s.emit u = some e ∧ t = e.cover pixels items := by
  rw [State.emitUnit, State.withinEncoder_eq_next] at h
  obtain ⟨-, h⟩ := h
  split at h
  · exact .inl h.symm
  · exact .inr ⟨_, ‹_›, h.symm⟩

/-- The forms that the meaning of an instruction can have in state s: a command word, an RLE unit, an emitted unit, a
Group-3 code or a pixel. -/
inductive ExecForm (s : State) : Host.Outcome State Fault Refusal → Prop
  | legalCommand (w : Word) (op : Operation) (d : Depth) (f : CmdFlags) :
      ExecForm s (runCommand w (fun s => s.firstStep op d f) s)
  | reservedCommand (w : Word) : ExecForm s (runCommand w (fun s => s.raise .unsupported) s)
  | pixels8 (len n : Nat) (vs : List Byte) (hn : vs.length ≤ n) :
      ExecForm s (rlePixels .rle8 len n (fun s => putPixels State.put8 s s.eng.x.toNat s.eng.y.toNat vs) s)
  | pixels4 (len n : Nat) (vs : List Nibble) (hn : vs.length ≤ n) :
      ExecForm s (rlePixels .rle4 len n (fun s => putPixels State.put4 s s.eng.x.toNat s.eng.y.toNat vs) s)
  | pixels24 (len n : Nat) (vs : List (Byte × Byte × Byte)) (hn : vs.length ≤ n) :
      ExecForm s (rlePixels .rle24 len n (fun s => putPixels State.put24 s s.eng.x.toNat s.eng.y.toNat vs) s)
  | rleEol (v : Rle) : ExecForm s (rleEol v s)
  | rleEob (v : Rle) : ExecForm s (rleEob v s)
  | rleDelta (v : Rle) (dx dy : Byte) : ExecForm s (rleDelta v dx dy s)
  | emitUnit (u : List Byte) (pixels items : Nat) : ExecForm s (s.emitUnit u pixels items)
  | encEol : ExecForm s (execEncEol s)
  | encEob : ExecForm s (execEncEob s)
  | runCode (len : Nat) (effect : State → Except ErrCode State) (he : CodeEffect effect) :
      ExecForm s (runCode len effect s)
  | eolCode (fill : Nat) : ExecForm s (execEol fill s)
  | pixel (d : Depth) (color : State → Option Rgba) : ExecForm s (pixelStep d color s)

/-- The meaning of every instruction has one of the forms; the constructors not named here are the 195 run codes. -/
theorem exec_form (i : Instr) (s : State) : ExecForm s (exec i s) := by
  cases i with
  | unpack1 f | unpack4 f | unpack8 f | unpack24 f | unpack32 f | decRle8 d f | decRle4 d f | decHuff d f
  | decRle24 d f | encRle8 d f | encRle4 d f => exact .legalCommand _ _ _ _
  | reservedOp5 b f | reservedOp6 b f | reservedOp7 b f | reservedOp8 b f | reservedOpB b f | reservedOpC b f
  | reservedOpD b f | reservedOpE b f | reservedOpF b f | reservedBpp5 op f | reservedBpp6 op f
  | reservedBpp7 op f => exact .reservedCommand _
  | rle8Run c v => exact .pixels8 _ _ _ (by simp)
  | rle8Abs n data => exact .pixels8 _ _ _ (by simp)
  | rle4Run c h l => exact .pixels4 _ _ _ (by simp [runPixels4])
  | rle4Abs n data => exact .pixels4 _ _ _ (by simp [absPixels4])
  | rle24Run c b0 b1 b2 => exact .pixels24 _ _ _ (by simp)
  | rle24Abs n data => exact .pixels24 _ _ _ (by simp [absPixels24])
  | rle8Eol | rle4Eol | rle24Eol => exact .rleEol _
  | rle8Eob | rle4Eob | rle24Eob => exact .rleEob _
  | rle8Delta dx dy | rle4Delta dx dy | rle24Delta dx dy => exact .rleDelta _ _ _
  | encRun c v => exact (execEncRun_eq c v s ▸ .emitUnit _ _ _ : ExecForm s (execEncRun c v s))
  | encAbs n data => exact (execEncAbs_eq n data s ▸ .emitUnit _ _ _ : ExecForm s (execEncAbs n data s))
  | encShort c v w => exact (execEncShort_eq c v w s ▸ .emitUnit _ _ _ : ExecForm s (execEncShort c v w s))
  | encEol => exact .encEol
  | encEob => exact .encEob
  | eol fill => exact .eolCode _
  | pix1 e => exact (.pixel _ _ : ExecForm s (execPix1 e s))
  | pix4 h l => exact (.pixel _ _ : ExecForm s (execPix4 h l s))
  | pix8 v => exact (.pixel _ _ : ExecForm s (execPix8 v s))
  | pix24 b g r => exact (.pixel _ _ : ExecForm s (execPix24 b g r s))
  | pix32 b g r x => exact (.pixel _ _ : ExecForm s (execPix32 b g r x s))
  | _ => exact .runCode _ _ (by constructor)

/-! ### The relation: only OUT changes -/

/-- From s to t the configuration, G3_TABLE and every byte outside OUT stay. -/
structure State.OnlyOut (s t : State) : Prop where
  cfg : t.cfg = s.cfg
  g3 : t.g3 = s.g3
  mem : ∀ a, s.inOut a = false → t.memByte a = s.memByte a

namespace State.OnlyOut

theorem refl (s : State) : s.OnlyOut s := ⟨rfl, rfl, fun _ _ => rfl⟩

theorem trans {s t u : State} (h : s.OnlyOut t) (h' : t.OnlyOut u) : s.OnlyOut u where
  cfg := h'.cfg.trans h.cfg
  g3 := h'.g3.trans h.g3
  mem a ha := by
    have ha' : t.inOut a = false := by rwa [State.inOut, h.cfg]
    exact (h'.mem a ha').trans (h.mem a ha)

/-- A change that leaves memory alone. -/
theorem of_mem_eq {s t : State} (hc : t.cfg = s.cfg) (hg : t.g3 = s.g3) (hm : t.mem = s.mem) : s.OnlyOut t :=
  ⟨hc, hg, fun a _ => State.memByte_congr hm a⟩

end State.OnlyOut

/-- An address outside OUT is no address of a byte of OUT. -/
theorem State.ne_of_inOut_eq_false {s : State} {a k : Nat} (ha : s.inOut a = false) (hk : k < s.cfg.outLen.toNat) :
    a ≠ s.cfg.outBase.toNat + k := by
  rintro rfl
  simp [State.inOut, inRegion, hk] at ha

/-! ### The ends of an operation and the writes to OUT -/

theorem State.onlyOut_raise (s : State) (c : ErrCode) : s.OnlyOut (s.raise c) :=
  ⟨rfl, rfl, fun _ ha => State.memByte_raise ha c⟩

theorem State.onlyOut_finish (s : State) : s.OnlyOut s.finish :=
  ⟨rfl, rfl, fun _ ha => State.memByte_finish ha⟩

theorem State.OnlyOut.finish {s t : State} (h : s.OnlyOut t) : s.OnlyOut t.finish :=
  h.trans t.onlyOut_finish

theorem State.onlyOut_outWriteList {s : State} {k : Nat} {vs : List Byte} (h : k + vs.length ≤ s.cfg.outLen.toNat) :
    s.OnlyOut (s.outWriteList k vs) where
  cfg := State.outWriteList_cfg vs s k
  g3 := State.outWriteList_g3 vs s k
  mem a ha := by
    rw [State.memByte_outWriteList, if_neg]
    rintro ⟨h1, h2⟩
    exact State.ne_of_inOut_eq_false (k := a - s.cfg.outBase.toNat) ha (by omega) (by omega)

theorem State.onlyOut_outWrite {s : State} {k : Nat} (h : k < s.cfg.outLen.toNat) (v : Byte) :
    s.OnlyOut (s.outWrite k v) :=
  State.onlyOut_outWriteList (vs := [v]) h

/-! ### Command words and the zero-fill -/

theorem State.onlyOut_writeCtrl (s : State) (v : Word) : s.OnlyOut (s.writeCtrl v) := by
  cases hb : s.busy with
  | true =>
    rw [State.writeCtrl_of_busy hb]
    exact .refl s
  | false =>
    cases hv : v.getLsbD 0 with
    | true =>
      rw [State.writeCtrl_start hb hv]
      exact .of_mem_eq rfl rfl rfl
    | false =>
      rw [State.writeCtrl_no_start hb hv]
      exact .of_mem_eq rfl rfl rfl

theorem State.onlyOut_firstStep (s : State) (op : Operation) (d : Depth) (f : CmdFlags) :
    s.OnlyOut (s.firstStep op d f) := by
  cases hc : configError op d f s.cfg with
  | some c =>
    rw [State.firstStep_fails hc]
    exact s.onlyOut_raise c
  | none =>
    rw [State.firstStep_enters hc]
    exact .of_mem_eq (s.enterOperation_cfg op d) (s.enterOperation_g3 op d) (s.enterOperation_mem op d)

theorem runCommand_onlyOut {w : Word} {first : State → State} {s t : State}
    (h : runCommand w first s = .next t) (hf : s.OnlyOut (first s)) : s.OnlyOut t := by
  obtain ⟨-, rfl⟩ | ⟨-, rfl⟩ | rfl := runCommand_cases h
  · exact s.onlyOut_writeCtrl w
  · exact hf
  · exact .refl _

theorem zeroFillStep_onlyOut {k : Word} {s t : State} (h : zeroFillStep k s = .next t) : s.OnlyOut t := by
  obtain ⟨op, d, -, -, -, -, hk, rfl⟩ := zeroFillStep_cases h
  exact (State.onlyOut_outWrite (hk.trans_le (fillLength_le d s.cfg)) 0).trans (.of_mem_eq rfl rfl rfl)

/-! ### RLE units -/

/-- A passed write check: the byte of the last pixel lies in OUT (spec/40_rle_decode.md R153). -/
theorem State.lastByte_lt_of_checkWrite {s : State} {d : Depth} {n : Nat} (h : s.checkWrite d n = none) :
    s.lastByte d n < s.cfg.outLen.toNat := by
  rcases s.checkWrite_cases d n with ⟨-, h'⟩ | ⟨-, -, h'⟩ | ⟨-, -, hl, -⟩
  · cases h.symm.trans h'
  · cases h.symm.trans h'
  · exact hl

theorem State.onlyOut_putPixels_put8 {s : State} {n : Nat} {vs : List Byte} (hn : vs.length ≤ n)
    (hl : s.lastByte .d8 n < s.cfg.outLen.toNat) :
    s.OnlyOut (putPixels State.put8 s s.eng.x.toNat s.eng.y.toNat vs) := by
  simp only [State.lastByte, Depth.bits] at hl
  rw [putPixels_put8]
  exact State.onlyOut_outWriteList (by omega)

theorem putPixels_put4_g3 (vs : List Nibble) (s : State) (x y : Nat) :
    (putPixels State.put4 s x y vs).g3 = s.g3 := by
  induction vs generalizing s x with
  | nil => rfl
  | cons v vs ih => exact ih (s.put4 x y v) (x + 1)

theorem State.onlyOut_putPixels_put4 {s : State} {n : Nat} {vs : List Nibble} (hn : vs.length ≤ n)
    (hl : s.lastByte .d4 n < s.cfg.outLen.toNat) :
    s.OnlyOut (putPixels State.put4 s s.eng.x.toNat s.eng.y.toNat vs) := by
  simp only [State.lastByte, Depth.bits] at hl
  obtain ⟨-, -, hcfg, -⟩ := putPixels_put4_frame vs s s.eng.x.toNat s.eng.y.toNat
  exact ⟨hcfg, putPixels_put4_g3 _ _ _ _, fun a ha => memByte_putPixels_put4 _ _ _ _ _ fun i hi =>
    State.ne_of_inOut_eq_false ha (by omega)⟩

theorem State.onlyOut_putPixels_put24 {s : State} {n : Nat} {vs : List (Byte × Byte × Byte)} (hn : vs.length ≤ n)
    (hl : s.lastByte .d24 n < s.cfg.outLen.toNat) :
    s.OnlyOut (putPixels State.put24 s s.eng.x.toNat s.eng.y.toNat vs) := by
  simp only [State.lastByte, Depth.bits] at hl
  rw [putPixels_put24]
  refine State.onlyOut_outWriteList ?_
  rw [pixelBytes24_length]
  omega

/-- A unit that writes pixels, when its pixels lie in OUT after a passed write check. -/
theorem rlePixels_onlyOut {v : Rle} {len n : Nat} {write : State → State} {s t : State}
    (h : rlePixels v len n write s = .next t)
    (hw : s.lastByte (Rle.depth v) n < s.cfg.outLen.toNat → s.OnlyOut (write s)) : s.OnlyOut t := by
  obtain ⟨-, ⟨c, rfl⟩ | ⟨-, hc, rfl⟩⟩ := rlePixels_cases h
  · exact s.onlyOut_raise c
  · exact (hw (State.lastByte_lt_of_checkWrite hc)).trans (.of_mem_eq rfl rfl rfl)

theorem rleUnit_onlyOut {v : Rle} {len : Nat} {effect : State → State} {s t : State}
    (h : rleUnit v len effect s = .next t) (he : s.OnlyOut (effect s)) : s.OnlyOut t := by
  obtain ⟨-, ⟨-, rfl⟩ | ⟨-, rfl⟩⟩ := rleUnit_cases h
  · exact s.onlyOut_raise _
  · exact he

theorem rleEob_onlyOut {v : Rle} {s t : State} (h : rleEob v s = .next t) : s.OnlyOut t :=
  rleUnit_onlyOut h (.finish (.of_mem_eq rfl rfl rfl))

/-! ### Emitted units -/

theorem State.onlyOut_emit {s t : State} {u : List Byte} (h : s.emit u = some t) : s.OnlyOut t := by
  obtain ⟨-, hn⟩ | ⟨hl, hs⟩ := s.emit_cases u
  · cases hn.symm.trans h
  · cases hs.symm.trans h
    exact (State.onlyOut_outWriteList hl).trans (.of_mem_eq rfl rfl rfl)

theorem State.emitUnit_onlyOut {s t : State} {u : List Byte} {pixels items : Nat}
    (h : s.emitUnit u pixels items = .next t) : s.OnlyOut t := by
  obtain rfl | ⟨e, he, rfl⟩ := State.emitUnit_cases h
  · exact s.onlyOut_raise _
  · exact (State.onlyOut_emit he).trans (.of_mem_eq rfl rfl rfl)

theorem endRow_onlyOut {unit : List Byte} {next : State → State} {s t : State}
    (h : endRow unit next s = .next t) (hn : ∀ e, State.OnlyOut e (next e)) : s.OnlyOut t := by
  obtain ⟨-, ⟨-, rfl⟩ | ⟨-, -, rfl⟩ | ⟨-, e, he, rfl⟩⟩ := endRow_cases h
  · exact s.onlyOut_raise _
  · exact s.onlyOut_raise _
  · exact (State.onlyOut_emit he).trans (hn e)

theorem execEncEol_onlyOut {s t : State} (h : execEncEol s = .next t) : s.OnlyOut t :=
  endRow_onlyOut h fun _ => .of_mem_eq rfl rfl rfl

theorem execEncEob_onlyOut {s t : State} (h : execEncEob s = .next t) : s.OnlyOut t :=
  endRow_onlyOut h fun _ => .finish (.of_mem_eq rfl rfl rfl)

/-! ### Group-3 codes -/

theorem State.putBitRun_g3 (n : Nat) (s : State) (x y : Nat) (v : Bool) : (s.putBitRun x y v n).g3 = s.g3 := by
  induction n generalizing s x with
  | zero => rfl
  | succ n ih => exact ih (s.putBit x y v) (x + 1)

/-- A run whose pixels are bits of OUT. -/
theorem State.onlyOut_putBitRun {s : State} {x y n : Nat} (v : Bool)
    (hl : 0 < n → y * stride .d1 s.cfg.width.toNat + (x + n - 1) / 8 < s.cfg.outLen.toNat) :
    s.OnlyOut (s.putBitRun x y v n) := by
  obtain ⟨-, -, hcfg, -⟩ := s.putBitRun_frame n x y v
  refine ⟨hcfg, s.putBitRun_g3 n x y v, fun a ha => s.memByte_putBitRun n x y v a fun i hi => ?_⟩
  have hlast := hl (by omega)
  exact State.ne_of_inOut_eq_false ha (by omega)

theorem CodeEffect.onlyOut {effect : State → Except ErrCode State} (he : CodeEffect effect) {s u : State}
    (h : effect s = .ok u) : s.OnlyOut u := by
  cases he with
  | terminating n =>
    obtain ⟨-, hl, rfl⟩ := terminateRun_ok h
    exact (State.onlyOut_putBitRun _ fun h0 => (hl h0).2).trans (.of_mem_eq rfl rfl rfl)
  | makeUp n =>
    obtain ⟨-, rfl⟩ := makeUpRun_ok h
    exact .of_mem_eq rfl rfl rfl

theorem runCode_onlyOut {len : Nat} {effect : State → Except ErrCode State} (he : CodeEffect effect) {s t : State}
    (h : runCode len effect s = .next t) : s.OnlyOut t := by
  obtain ⟨-, ⟨c, rfl⟩ | ⟨-, u, hu, rfl⟩⟩ := runCode_cases h
  · exact s.onlyOut_raise c
  · exact (he.onlyOut hu).trans (.of_mem_eq rfl rfl rfl)

theorem execEol_onlyOut {fill : Nat} {s t : State} (h : execEol fill s = .next t) : s.OnlyOut t := by
  obtain ⟨-, ⟨-, rfl⟩ | ⟨-, -, rfl⟩ | ⟨-, -, rfl⟩⟩ := execEol_cases h
  · exact s.onlyOut_raise _
  · exact .finish (.of_mem_eq rfl rfl rfl)
  · exact .of_mem_eq rfl rfl rfl

/-! ### Pixels -/

theorem State.onlyOut_nextPixel (s : State) (d : Depth) : s.OnlyOut (s.nextPixel d) := by
  unfold State.nextPixel
  dsimp only
  split
  · exact .of_mem_eq rfl rfl rfl
  · split
    · exact .of_mem_eq rfl rfl rfl
    · exact .finish (.of_mem_eq rfl rfl rfl)

theorem State.onlyOut_storePixel {s : State} {d : Depth} (hr : s.running .unpack d = true) (c : Rgba) :
    s.OnlyOut (s.storePixel c) := by
  rw [State.storePixel_eq]
  refine State.onlyOut_outWriteList ?_
  rw [Rgba.bytes_length]
  exact State.running_pixel_in_out hr

theorem pixelStep_onlyOut {d : Depth} {color : State → Option Rgba} {s t : State}
    (h : pixelStep d color s = .next t) : s.OnlyOut t := by
  obtain ⟨hr, ⟨-, rfl⟩ | ⟨c, -, rfl⟩⟩ := pixelStep_cases h
  · exact s.onlyOut_raise _
  · exact (State.onlyOut_storePixel hr c).trans (State.onlyOut_nextPixel _ d)

/-! ### Every instruction, every turn of the engine, every step -/

theorem ExecForm.onlyOut {s t : State} {o : Host.Outcome State Fault Refusal} (hf : ExecForm s o) (h : o = .next t) :
    s.OnlyOut t := by
  cases hf with
  | legalCommand w op d f => exact runCommand_onlyOut h (s.onlyOut_firstStep op d f)
  | reservedCommand w => exact runCommand_onlyOut h (s.onlyOut_raise _)
  | pixels8 len n vs hn => exact rlePixels_onlyOut h (State.onlyOut_putPixels_put8 hn)
  | pixels4 len n vs hn => exact rlePixels_onlyOut h (State.onlyOut_putPixels_put4 hn)
  | pixels24 len n vs hn => exact rlePixels_onlyOut h (State.onlyOut_putPixels_put24 hn)
  | rleEol v => exact rleUnit_onlyOut h (.of_mem_eq rfl rfl rfl)
  | rleEob v => exact rleEob_onlyOut h
  | rleDelta v dx dy => exact rleUnit_onlyOut h (.of_mem_eq rfl rfl rfl)
  | emitUnit u pixels items => exact State.emitUnit_onlyOut h
  | encEol => exact execEncEol_onlyOut h
  | encEob => exact execEncEob_onlyOut h
  | runCode len effect he => exact runCode_onlyOut he h
  | eolCode fill => exact execEol_onlyOut h
  | pixel d color => exact pixelStep_onlyOut h

theorem exec_onlyOut {i : Instr} {s t : State} (h : exec i s = .next t) : s.OnlyOut t :=
  (exec_form i s).onlyOut h

theorem interpretStep_onlyOut {s t : State} (h : interpretStep s = .next t) : s.OnlyOut t := by
  obtain ⟨i, -, h⟩ | ⟨-, rfl⟩ | ⟨c, -, rfl⟩ := interpretStep_cases h
  · exact exec_onlyOut h
  · exact .finish (.of_mem_eq rfl rfl rfl)
  · exact s.onlyOut_raise c

theorem engineStep_onlyOut {s t : State} (h : engineStep s = .next t) : s.OnlyOut t := by
  have hd : s.OnlyOut s.drawn := .of_mem_eq rfl rfl rfl
  obtain he | ⟨-, k, -, he⟩ | ⟨-, -, he⟩ := engineStep_cases s
  · cases he.symm.trans h
    exact .refl s
  · exact hd.trans (zeroFillStep_onlyOut (he.symm.trans h))
  · exact hd.trans (interpretStep_onlyOut (he.symm.trans h))

theorem State.onlyOut_withInputs (s : State) (l : List Input) : s.OnlyOut (s.withInputs l) :=
  .of_mem_eq rfl rfl rfl

/-- At a turn of the engine the step is the engine's. -/
theorem step_turn_onlyOut {s u t : State} (hu : s.turn u) (h : step s = .next t) : s.OnlyOut t := by
  obtain ⟨-, ⟨hi, -⟩ | ⟨rest, hi, -⟩⟩ := hu
  · exact engineStep_onlyOut ((step_no_inputs hi).symm.trans h)
  · exact (s.onlyOut_withInputs rest).trans (engineStep_onlyOut ((step_engine hi).symm.trans h))

/-! ### The host's accesses and G3_TABLE -/

@[simp] theorem State.hostReadReg_g3 (s : State) (offset : Nat) : (s.hostReadReg offset).g3 = s.g3 := by
  rw [State.hostReadReg_eq]

@[simp] theorem State.hostReadIrq_g3 (s : State) : s.hostReadIrq.g3 = s.g3 := by
  rw [State.hostReadIrq_eq]

@[simp] theorem State.hostReadMem_g3 (s : State) (a : Word) : (s.hostReadMem a).g3 = s.g3 := by
  rw [State.hostReadMem_eq]

@[simp] theorem State.hostWriteMem_g3 (s : State) (a : Word) (v : Byte) : (s.hostWriteMem a v).g3 = s.g3 := by
  rw [State.hostWriteMem_eq]

theorem hostStep_g3 {inp : Input} {s t : State} (h : hostStep inp s = .next t) : t.g3 = s.g3 := by
  obtain ⟨o, -, -, -, rfl⟩ | ⟨o, -, v, -, -, rfl⟩ | ⟨-, rfl⟩ | ⟨a, -, rfl⟩ | ⟨a, v, -, rfl⟩ | ⟨-, rfl⟩ | ⟨-, rfl⟩ |
    ⟨-, rfl⟩ := hostStep_cases h
  · exact s.hostReadReg_g3 o.toNat
  · obtain ⟨-, -, hg⟩ := s.writeReg_frame o.toNat v
    split
    · rfl
    · exact hg
  · exact s.hostReadIrq_g3
  · exact s.hostReadMem_g3 a
  · exact s.hostWriteMem_g3 a v
  · exact s.assertReset_g3
  · exact s.deassertReset_g3
  · rfl

/-- No step changes the parameter G3_TABLE (spec/00_scope.md R6). -/
theorem step_g3 {s t : State} (h : step s = .next t) : t.g3 = s.g3 := by
  obtain ⟨-, he⟩ | ⟨rest, -, he⟩ | ⟨inp, rest, -, -, he⟩ := step_cases s
  · exact (engineStep_onlyOut (he.symm.trans h)).g3
  · exact (engineStep_onlyOut (he.symm.trans h)).g3
  · exact (hostStep_g3 (he.symm.trans h)).trans (s.withInputs_g3 rest)

/-- Settles O59: every form of an instruction's meaning writes inside OUT only, and the turns of the engine are such
meanings, the zero-fill, or an operation's end. -/
theorem writesOnlyOut : Obligations.WritesOnlyOut := by
  refine ⟨fun i s t h => ?_, fun s u t hu h => ?_, fun s t h => step_g3 h⟩
  · have ho := exec_onlyOut h
    exact ⟨ho.cfg, ho.mem⟩
  · have ho := step_turn_onlyOut hu h
    exact ⟨ho.cfg, ho.mem⟩

end Sys2Proof.Machine
end

section
/-!
PROOF. The register window (spec/10_state.md R42 to R60, R65): what each register reads as and what a host write of it
changes, through the laws of the host's accesses (Laws/HostPort.lean).
-/

namespace Sys2Proof.Machine

/-! ### A register access is the next input -/

theorem regAccessOk_word {offset : Byte} (ho : offset.toNat % 4 = 0) : regAccessOk offset 4 = true := by
  simp [regAccessOk, ho]

theorem step_readReg {s : State} {offset : Byte} {rest : List Input} (ho : offset.toNat % 4 = 0)
    (h : s.plat.inputs = .readReg offset 4 :: rest) :
    step s = .next ((s.withInputs rest).hostReadReg offset.toNat) := by
  rw [step_host h (by simp), hostStep, if_pos (regAccessOk_word ho)]

theorem step_writeReg {s : State} {offset : Byte} {v : Word} {rest : List Input} (ho : offset.toNat % 4 = 0)
    (hr : s.plat.inReset = false) (h : s.plat.inputs = .writeReg offset 4 v :: rest) :
    step s = .next ((s.withInputs rest).writeReg offset.toNat v) := by
  rw [step_host h (by simp), hostStep, if_pos (regAccessOk_word ho), State.withInputs_plat_inReset, hr]
  rfl

theorem step_writeReg_inReset {s : State} {offset : Byte} {v : Word} {rest : List Input} (ho : offset.toNat % 4 = 0)
    (hr : s.plat.inReset = true) (h : s.plat.inputs = .writeReg offset 4 v :: rest) :
    step s = .next (s.withInputs rest) := by
  rw [step_host h (by simp), hostStep, if_pos (regAccessOk_word ho), State.withInputs_plat_inReset, hr]
  rfl

@[simp] theorem State.withInputs_busy (s : State) (l : List Input) : (s.withInputs l).busy = s.busy := rfl

@[simp] theorem State.withInputs_regValue (s : State) (l : List Input) (k : Nat) :
    (s.withInputs l).regValue k = s.regValue k := rfl

/-! ### STATUS (R45) -/

/-- STATUS is a sum of its fields at their places. -/
theorem State.statusWord_toNat (s : State) :
    s.statusWord.toNat = s.busy.toNat + 2 * s.status.done.toNat + 4 * s.err.toNat + 8 * s.status.eobi.toNat +
      256 * s.status.errcode.byte.toNat := by
  unfold State.statusWord State.err
  generalize s.busy = b
  obtain ⟨d, e, c⟩ := s.status
  cases c <;> revert b d e <;> decide

theorem State.statusWord_getLsbD_zero (s : State) : s.statusWord.getLsbD 0 = s.busy := by
  simp only [State.statusWord, BitVec.getLsbD_or, BitVec.getLsbD_shiftLeft, bitWord_getLsbD]
  simp

theorem State.statusWord_getLsbD_one (s : State) : s.statusWord.getLsbD 1 = s.status.done := by
  simp only [State.statusWord, BitVec.getLsbD_or, BitVec.getLsbD_shiftLeft, bitWord_getLsbD]
  simp

/-- Settles O44: STATUS is the sum of its fields, and ERRCODE's number is its byte (R400). -/
theorem statusRead : Obligations.StatusRead := by
  intro s
  rw [State.statusWord_toNat]
  unfold State.err
  cases s.status.errcode <;> rfl

/-! ### Register reads (R59, R60) -/

/-- What a register reads as, by its offset. -/
theorem State.regValue_byte (s : State) (offset : Byte) :
    s.regValue offset.toNat =
      if offset = 0x00 then s.ctrlWord
      else if offset = 0x04 then s.statusWord
      else if offset = 0x08 then s.cfg.width
      else if offset = 0x0C then s.cfg.height
      else if offset = 0x10 then s.cfg.inBase
      else if offset = 0x14 then s.cfg.inLen
      else if offset = 0x18 then s.cfg.outBase
      else if offset = 0x1C then s.cfg.outLen
      else if offset = 0x20 then s.cfg.palBase
      else if offset = 0x24 then s.cfg.palCount
      else if offset = 0x28 then s.pos.inPos
      else if offset = 0x2C then s.pos.outPos
      else if offset = 0x30 then s.pos.curX
      else if offset = 0x34 then s.pos.curY
      else 0 := by
  simp only [← BitVec.toNat_inj]
  unfold State.regValue
  split
  case h_15 => simp_all
  all_goals
    rename_i h
    simp [h]

/-- A read of STATUS observes the end of an operation when BUSY = 0 or DONE = 1 (R91, R460; log 30). -/
theorem State.hostReadReg_unseen (s : State) (offset : Byte) :
    (s.hostReadReg offset.toNat).plat.unseen =
      if offset = 0x04 ∧ (s.plat.inReset = true ∨ s.busy = false ∨ s.status.done = true) then []
      else s.plat.unseen := by
  rw [State.hostReadReg, State.observe_plat_unseen, State.withReadData_plat_unseen]
  by_cases ho : offset = 0x04
  · subst ho
    have hv : s.regValue (0x04 : Byte).toNat = s.statusWord := rfl
    cases hr : s.plat.inReset with
    | true => simp
    | false =>
      rw [if_neg Bool.false_ne_true, hv, State.statusWord_getLsbD_zero, State.statusWord_getLsbD_one]
      simp
  · have hn : offset.toNat ≠ 0x04 := fun h => ho (BitVec.eq_of_toNat_eq h)
    rw [if_neg (by simp [hn]), if_neg fun h => ho h.1]

/-- Settles O45: a read leaves the block alone, returns the register, and observes an operation's end. -/
theorem registerRead : Obligations.RegisterRead := by
  intro s offset rest ho h
  rw [step_readReg ho h, State.hostReadReg_eq, State.hostReadReg_unseen, State.withInputs_regValue,
    State.regValue_byte]
  rfl

/-! ### Register writes (R44, R46 to R54) -/

/-- A configuration write is read back at its own offset, and no other register reads differently. -/
theorem State.regValue_cfg_write (s : State) (offset k : Nat) (ho : offset % 4 = 0) (v : Word) :
    ({ s with cfg := s.cfg.write offset v } : State).regValue k =
      if k = offset ∧ 0x08 ≤ offset ∧ offset ≤ 0x24 then v else s.regValue k := by
  by_cases hk : k = offset
  · subst hk
    unfold Cfg.write
    split
    case h_9 =>
      rw [if_neg]
      simp only [imp_false] at *
      omega
    all_goals rfl
  · rw [if_neg fun h => hk h.1]
    unfold Cfg.write
    split
    case h_9 => rfl
    all_goals
      unfold State.regValue
      split <;> try contradiction
      all_goals rfl

/-- Settles O43: a CTRL write is ignored while BUSY, and else takes the fields, with or without the START action. -/
theorem ctrlWrite : Obligations.CtrlWrite := by
  intro s v rest hr h
  have hstep : step s = .next ((s.withInputs rest).writeCtrl v) := step_writeReg (offset := 0x00) rfl hr h
  rw [hstep]
  refine ⟨fun hb => ?_, fun hb => ⟨_, rfl, ?_⟩⟩
  · rw [State.writeCtrl_of_busy (s.withInputs_busy rest ▸ hb)]
  · have hb' : (s.withInputs rest).busy = false := hb
    cases hv : v.getLsbD 0 with
    | false =>
      rw [State.writeCtrl_no_start hb' hv]
      exact ⟨packCtrl_ofWord v, rfl, rfl, rfl, fun _ => ⟨rfl, rfl, rfl⟩, nofun⟩
    | true =>
      rw [State.writeCtrl_start hb' hv]
      exact ⟨packCtrl_ofWord v, rfl, rfl, rfl, nofun, fun _ => ⟨rfl, rfl, rfl, rfl⟩⟩

/-- Settles O46: the write changes the configuration register of its offset, if the offset has one. -/
theorem registerWrite : Obligations.RegisterWrite := by
  intro s offset v rest ho h0 h4 hr hb h
  have hn0 : offset.toNat ≠ 0 := fun he => h0 (BitVec.eq_of_toNat_eq he)
  have hn4 : offset.toNat ≠ 4 := fun he => h4 (BitVec.eq_of_toNat_eq he)
  refine ⟨s.cfg.write offset.toNat v, ?_, fun k hk => ?_, ?_⟩
  · rw [step_writeReg ho hr h, State.writeReg_other hn0 hn4, State.withInputs_busy, hb]
    rfl
  · rw [State.regValue_cfg_write s _ _ ho, if_neg fun he => hk (BitVec.eq_of_toNat_eq he.1)]
  · rw [State.regValue_cfg_write s _ _ ho]
    simp only [true_and]

/-! ### The interrupt (R65) and the state after reset (R451) -/

/-- Settles O50: IRQ is IRQ_EN ∧ DONE, and each event sets one of the two. -/
theorem completionInterrupt : Obligations.CompletionInterrupt := by
  intro s
  refine ⟨by simp [State.irq], fun c => ?_, ?_, ?_, fun v hb hv => ?_, fun v hb hv hd => ?_⟩
  · simp [State.irq]
  · simp [State.irq]
  · simp [State.irq]
  · simp [State.irq, State.writeCtrl_start hb hv, Status.zero]
  · simp [State.irq, State.writeCtrl_no_start hb hv, hd, Ctrl.ofWord, flagsOfWord]

theorem reset_regValue (k : Nat) : State.reset.regValue k = 0 := by
  unfold State.regValue
  split <;> rfl

/-- Settles O52: every field of the state after reset is 0, and an idle state with no memory listed meets the
invariant. -/
theorem afterReset : Obligations.AfterReset :=
  ⟨fun k => reset_regValue k.toNat, rfl, rfl, rfl, rfl, rfl⟩

end Sys2Proof.Machine
end

section
/-!
PROOF. What a step can do to the control state: CTRL, STATUS and BUSY. A turn of the engine while BUSY either goes on
(`State.Keeps`) or ends the operation (`State.Ends`); a host's access leaves the control state alone (`State.Quiet`), or
it is one of the register writes, or the end of a reset. Only the events of spec/10_state.md R63 change the flags.
-/

namespace Sys2Proof.Machine

/-! ### The relation: bytes of OUT are written -/

/-- From s to t only memory changes, and it keeps its canonical form when OUT lies inside the address space. -/
structure State.WritesOut (s t : State) : Prop where
  eq : t = { s with mem := t.mem }
  memOk : s.cfg.outBase.toNat + s.cfg.outLen.toNat ≤ Config.memSize → s.memOk = true → t.memOk = true

namespace State.WritesOut

theorem refl (s : State) : s.WritesOut s := ⟨rfl, fun _ h => h⟩

theorem cfg {s t : State} (h : s.WritesOut t) : t.cfg = s.cfg := by rw [h.eq]

theorem trans {s t u : State} (h : s.WritesOut t) (h' : t.WritesOut u) : s.WritesOut u where
  eq := by rw [h'.eq, h.eq]
  memOk ho hm := h'.memOk (h.cfg ▸ ho) (h.memOk ho hm)

end State.WritesOut

theorem State.writesOut_outWriteList {s : State} {k : Nat} {vs : List Byte} (h : k + vs.length ≤ s.cfg.outLen.toNat) :
    s.WritesOut (s.outWriteList k vs) :=
  ⟨s.outWriteList_eq k vs, fun ho hm => State.outWriteList_memOk vs hm (by omega)⟩

theorem State.writesOut_outWrite {s : State} {k : Nat} (h : k < s.cfg.outLen.toNat) (v : Byte) :
    s.WritesOut (s.outWrite k v) :=
  State.writesOut_outWriteList (vs := [v]) h

theorem writesOut_putPixels_put8 {s : State} {n : Nat} {vs : List Byte} (hn : vs.length ≤ n)
    (hl : s.lastByte .d8 n < s.cfg.outLen.toNat) :
    s.WritesOut (putPixels State.put8 s s.eng.x.toNat s.eng.y.toNat vs) := by
  simp only [State.lastByte, Depth.bits] at hl
  rw [putPixels_put8]
  exact State.writesOut_outWriteList (by omega)

theorem writesOut_putPixels_put24 {s : State} {n : Nat} {vs : List (Byte × Byte × Byte)} (hn : vs.length ≤ n)
    (hl : s.lastByte .d24 n < s.cfg.outLen.toNat) :
    s.WritesOut (putPixels State.put24 s s.eng.x.toNat s.eng.y.toNat vs) := by
  simp only [State.lastByte, Depth.bits] at hl
  rw [putPixels_put24]
  refine State.writesOut_outWriteList ?_
  rw [pixelBytes24_length]
  omega

/-- Pixels of 4 bits whose bytes all lie in OUT. -/
theorem writesOut_putPixels_put4_from (vs : List Nibble) {s : State} {x y : Nat}
    (h : ∀ i < vs.length, y * stride .d4 s.cfg.width.toNat + (x + i) / 2 < s.cfg.outLen.toNat) :
    s.WritesOut (putPixels State.put4 s x y vs) := by
  induction vs generalizing s x with
  | nil => exact .refl s
  | cons v vs ih =>
    have h0 : s.WritesOut (s.put4 x y v) := State.writesOut_outWrite (h 0 (by simp)) _
    refine h0.trans (ih fun i hi => ?_)
    have := h (i + 1) (by simpa using hi)
    rwa [State.put4_cfg, Nat.add_right_comm x 1 i]

theorem writesOut_putPixels_put4 {s : State} {n : Nat} {vs : List Nibble} (hn : vs.length ≤ n)
    (hl : s.lastByte .d4 n < s.cfg.outLen.toNat) :
    s.WritesOut (putPixels State.put4 s s.eng.x.toNat s.eng.y.toNat vs) := by
  simp only [State.lastByte, Depth.bits] at hl
  exact writesOut_putPixels_put4_from vs fun i hi => by omega

/-- A run of bits whose bytes all lie in OUT. -/
theorem State.writesOut_putBitRun (n : Nat) {s : State} {x y : Nat} (v : Bool)
    (h : ∀ i < n, y * stride .d1 s.cfg.width.toNat + (x + i) / 8 < s.cfg.outLen.toNat) :
    s.WritesOut (s.putBitRun x y v n) := by
  induction n generalizing s x with
  | zero => exact .refl s
  | succ n ih =>
    have h0 : s.WritesOut (s.putBit x y v) := State.writesOut_outWrite (h 0 (by omega)) _
    refine h0.trans (ih fun i hi => ?_)
    have := h (i + 1) (by omega)
    rwa [State.putBit_cfg, Nat.add_right_comm x 1 i]

theorem State.writesOut_storePixel {s : State} {d : Depth} (hr : s.running .unpack d = true) (c : Rgba) :
    s.WritesOut (s.storePixel c) := by
  rw [State.storePixel_eq]
  refine State.writesOut_outWriteList ?_
  rw [Rgba.bytes_length]
  exact State.running_pixel_in_out hr

/-! ### The relation: the control state and the engine stay -/

/-- From s to t the registers and the engine stay, and memory keeps its canonical form. -/
structure State.Quiet (s t : State) : Prop where
  ctrl : t.ctrl = s.ctrl
  status : t.status = s.status
  cfg : t.cfg = s.cfg
  pos : t.pos = s.pos
  eng : t.eng = s.eng
  memOk : s.memOk = true → t.memOk = true

namespace State.Quiet

theorem refl (s : State) : s.Quiet s := ⟨rfl, rfl, rfl, rfl, rfl, id⟩

theorem withInputs (s : State) (l : List Input) : s.Quiet (s.withInputs l) := ⟨rfl, rfl, rfl, rfl, rfl, id⟩

theorem drawn (s : State) : s.Quiet s.drawn := ⟨rfl, rfl, rfl, rfl, rfl, id⟩

theorem busy {s t : State} (h : s.Quiet t) : t.busy = s.busy := by
  rw [State.busy, State.busy, h.eng]

theorem running {s t : State} (h : s.Quiet t) (op : Operation) (d : Depth) : t.running op d = s.running op d := by
  obtain ⟨⟩ := s
  obtain ⟨⟩ := t
  obtain ⟨rfl, rfl, rfl, rfl, rfl, -⟩ := h
  rfl

end State.Quiet

/-! ### The relations: an operation goes on, an operation ends -/

/-- From s to t CTRL, STATUS and BUSY stay, and memory keeps its canonical form. -/
structure State.Keeps (s t : State) : Prop where
  ctrl : t.ctrl = s.ctrl
  status : t.status = s.status
  busy : t.busy = s.busy
  memOk : s.memOk = true → t.memOk = true

/-- An RLE decode has read its whole input (spec/40_rle_decode.md R156). -/
def State.AtInputEnd (s : State) : Prop :=
  (∃ v, s.running (Rle.operation v) (Rle.depth v) = true) ∧ s.eng.p = s.cfg.inLen

/-- From s to t the operation ends: BUSY falls and DONE rises (spec/10_state.md R63), and EOBI rises only at the end of
an RLE decode's input. -/
structure State.Ends (s t : State) : Prop where
  ctrl : t.ctrl = s.ctrl
  busy : t.busy = false
  done : t.status.done = true
  eobi : t.status.eobi = s.status.eobi ∨ t.status.eobi = true ∧ s.AtInputEnd
  memOk : s.memOk = true → t.memOk = true

namespace State.Keeps

theorem refl (s : State) : s.Keeps s := ⟨rfl, rfl, rfl, id⟩

theorem trans {s t u : State} (h : s.Keeps t) (h' : t.Keeps u) : s.Keeps u :=
  ⟨h'.ctrl.trans h.ctrl, h'.status.trans h.status, h'.busy.trans h.busy, fun hm => h'.memOk (h.memOk hm)⟩

/-- A change that leaves memory alone. -/
theorem of_mem_eq {s t : State} (hc : t.ctrl = s.ctrl) (hs : t.status = s.status) (hb : t.busy = s.busy)
    (hm : t.mem = s.mem) : s.Keeps t :=
  ⟨hc, hs, hb, fun h => by rwa [State.memOk, hm]⟩

end State.Keeps

theorem State.Quiet.keeps {s t : State} (h : s.Quiet t) : s.Keeps t := ⟨h.ctrl, h.status, h.busy, h.memOk⟩

/-- An operation whose OUT lies inside the address space goes on after its writes to OUT. -/
theorem State.WritesOut.keeps {s t : State} (h : s.WritesOut t)
    (ho : s.cfg.outBase.toNat + s.cfg.outLen.toNat ≤ Config.memSize) : s.Keeps t where
  ctrl := by rw [h.eq]
  status := by rw [h.eq]
  busy := by
    rw [h.eq]
    rfl
  memOk := h.memOk ho

/-- Success ends the operation (spec/60_exceptions.md R402). -/
theorem State.Ends.finish {s t : State} (h : s.Keeps t) : s.Ends t.finish where
  ctrl := h.ctrl
  busy := rfl
  done := rfl
  eobi := .inl (by rw [State.finish_status_eobi, h.status])
  memOk hm := State.settle_memOk (h.memOk hm)

/-- An error ends the operation (spec/60_exceptions.md R401). -/
theorem State.ends_raise (s : State) (c : ErrCode) : s.Ends (s.raise c) :=
  ⟨rfl, rfl, rfl, .inl rfl, fun hm => State.settle_memOk hm⟩

theorem State.Quiet.atInputEnd {s t : State} (h : s.Quiet t) (ht : t.AtInputEnd) : s.AtInputEnd := by
  obtain ⟨⟨v, hv⟩, hp⟩ := ht
  exact ⟨⟨v, h.running _ _ ▸ hv⟩, by rwa [h.eng, h.cfg] at hp⟩

theorem State.Quiet.ends {s t u : State} (h : s.Quiet t) (h' : t.Ends u) : s.Ends u where
  ctrl := h'.ctrl.trans h.ctrl
  busy := h'.busy
  done := h'.done
  eobi := by
    rw [← h.status]
    exact h'.eobi.imp_right fun ⟨he, hi⟩ => ⟨he, h.atInputEnd hi⟩
  memOk hm := h'.memOk (h.memOk hm)

/-! ### Command words and the zero-fill -/

theorem State.enterOperation_busy (s : State) (op : Operation) (d : Depth) : (s.enterOperation op d).busy = true := by
  obtain ⟨-, -, h⟩ | ⟨-, h⟩ := s.enterOperation_cases op d <;> rw [h] <;> rfl

theorem State.firstStep_moves {s : State} (hb : s.busy = true) (op : Operation) (d : Depth) (f : CmdFlags) :
    s.Keeps (s.firstStep op d f) ∨ s.Ends (s.firstStep op d f) := by
  cases hc : configError op d f s.cfg with
  | some c =>
    rw [State.firstStep_fails hc]
    exact .inr (s.ends_raise c)
  | none =>
    rw [State.firstStep_enters hc]
    exact .inl (.of_mem_eq (s.enterOperation_ctrl op d) (s.enterOperation_status op d)
      ((s.enterOperation_busy op d).trans hb.symm) (s.enterOperation_mem op d))

theorem runCommand_moves {w : Word} {first : State → State} {s t : State} (hb : s.busy = true)
    (h : runCommand w first s = .next t) (hf : s.Keeps (first s) ∨ s.Ends (first s)) : s.Keeps t ∨ s.Ends t := by
  obtain ⟨hi, rfl⟩ | ⟨-, rfl⟩ | rfl := runCommand_cases h
  · simp [State.busy, hi] at hb
  · exact hf
  · exact .inl (.refl _)

theorem zeroFillStep_keeps {k : Word} {s t : State} (hb : s.busy = true) (h : zeroFillStep k s = .next t) :
    s.Keeps t := by
  obtain ⟨op, d, -, -, -, hc, hk, rfl⟩ := zeroFillStep_cases h
  have hw := (State.writesOut_outWrite (hk.trans_le (fillLength_le d s.cfg)) 0).keeps
    (configError_none hc).2.2.2.2.1
  refine hw.trans (.of_mem_eq rfl rfl ?_ rfl)
  rw [hw.busy, hb]
  split <;> rfl

/-! ### RLE units -/

theorem rlePixels_moves {v : Rle} {len n : Nat} {write : State → State} {s t : State}
    (h : rlePixels v len n write s = .next t)
    (hw : s.lastByte (Rle.depth v) n < s.cfg.outLen.toNat → s.WritesOut (write s)) : s.Keeps t ∨ s.Ends t := by
  obtain ⟨hr, ⟨c, rfl⟩ | ⟨-, hc, rfl⟩⟩ := rlePixels_cases h
  · exact .inr (s.ends_raise c)
  · have hk := (hw (State.lastByte_lt_of_checkWrite hc)).keeps (State.running_out hr)
    exact .inl (hk.trans (.of_mem_eq rfl rfl rfl rfl))

theorem rleUnit_moves {v : Rle} {len : Nat} {effect : State → State} {s t : State}
    (h : rleUnit v len effect s = .next t) (he : s.Keeps (effect s) ∨ s.Ends (effect s)) : s.Keeps t ∨ s.Ends t := by
  obtain ⟨-, ⟨-, rfl⟩ | ⟨-, rfl⟩⟩ := rleUnit_cases h
  · exact .inr (s.ends_raise _)
  · exact he

/-! ### Emitted units -/

theorem State.running_out_of_encoding {s : State} (h : s.encoding) :
    s.cfg.outBase.toNat + s.cfg.outLen.toNat ≤ Config.memSize :=
  h.elim State.running_out State.running_out

theorem State.keeps_emit {s t : State} {u : List Byte} (hr : s.encoding) (h : s.emit u = some t) : s.Keeps t := by
  obtain ⟨-, hn⟩ | ⟨hl, hs⟩ := s.emit_cases u
  · cases hn.symm.trans h
  · cases hs.symm.trans h
    have hk := (State.writesOut_outWriteList hl).keeps (State.running_out_of_encoding hr)
    exact hk.trans (.of_mem_eq rfl rfl hk.busy.symm rfl)

theorem State.encoding_of_emitUnit {s t : State} {u : List Byte} {pixels items : Nat}
    (h : s.emitUnit u pixels items = .next t) : s.encoding :=
  (State.withinEncoder_eq_next.mp h).1

theorem State.emitUnit_moves {s t : State} {u : List Byte} {pixels items : Nat}
    (h : s.emitUnit u pixels items = .next t) : s.Keeps t ∨ s.Ends t := by
  have hr := State.encoding_of_emitUnit h
  obtain rfl | ⟨e, he, rfl⟩ := State.emitUnit_cases h
  · exact .inr (s.ends_raise _)
  · exact .inl ((State.keeps_emit hr he).trans (.of_mem_eq rfl rfl rfl rfl))

theorem execEncEol_moves {s t : State} (h : execEncEol s = .next t) : s.Keeps t ∨ s.Ends t := by
  obtain ⟨hr, ⟨-, rfl⟩ | ⟨-, -, rfl⟩ | ⟨-, e, he, rfl⟩⟩ := endRow_cases h
  · exact .inr (s.ends_raise _)
  · exact .inr (s.ends_raise _)
  · exact .inl ((State.keeps_emit hr he).trans (.of_mem_eq rfl rfl rfl rfl))

theorem execEncEob_moves {s t : State} (h : execEncEob s = .next t) : s.Keeps t ∨ s.Ends t := by
  obtain ⟨hr, ⟨-, rfl⟩ | ⟨-, -, rfl⟩ | ⟨-, e, he, rfl⟩⟩ := endRow_cases h
  · exact .inr (s.ends_raise _)
  · exact .inr (s.ends_raise _)
  · exact .inr (.finish ((State.keeps_emit hr he).trans (.of_mem_eq rfl rfl rfl rfl)))

/-! ### Group-3 codes -/

theorem CodeEffect.keeps {effect : State → Except ErrCode State} (he : CodeEffect effect) {s u : State}
    (hr : s.running .decHuff .d1 = true) (h : effect s = .ok u) : s.Keeps u := by
  cases he with
  | terminating n =>
    obtain ⟨-, hl, rfl⟩ := terminateRun_ok h
    have hk := (State.writesOut_putBitRun (s.eng.pend.toNat + n) (s := s) (x := s.eng.x.toNat) (y := s.eng.y.toNat)
      (Color.bit s.eng.color) fun i hi => by
        obtain ⟨-, hlast⟩ := hl (by omega)
        omega).keeps (State.running_out hr)
    exact hk.trans (.of_mem_eq rfl rfl hk.busy.symm rfl)
  | makeUp n =>
    obtain ⟨-, rfl⟩ := makeUpRun_ok h
    exact .of_mem_eq rfl rfl rfl rfl

theorem runCode_moves {len : Nat} {effect : State → Except ErrCode State} (he : CodeEffect effect) {s t : State}
    (h : runCode len effect s = .next t) : s.Keeps t ∨ s.Ends t := by
  obtain ⟨hr, ⟨c, rfl⟩ | ⟨-, u, hu, rfl⟩⟩ := runCode_cases h
  · exact .inr (s.ends_raise c)
  · exact .inl ((he.keeps hr hu).trans (.of_mem_eq rfl rfl rfl rfl))

@[simp] theorem eolEngine_phase (e : Engine) : (eolEngine e).phase = e.phase := by
  unfold eolEngine
  split
  · split <;> rfl
  · rfl

/-- The line bookkeeping of an EOL code touches the engine's hidden state alone. -/
theorem State.keeps_eolEngine (s : State) : s.Keeps { s with eng := eolEngine s.eng } :=
  .of_mem_eq rfl rfl (by simp [State.busy]) rfl

theorem execEol_moves {fill : Nat} {s t : State} (h : execEol fill s = .next t) : s.Keeps t ∨ s.Ends t := by
  obtain ⟨-, ⟨-, rfl⟩ | ⟨-, -, rfl⟩ | ⟨-, -, rfl⟩⟩ := execEol_cases h
  · exact .inr (s.ends_raise _)
  · exact .inr (.finish (s.keeps_eolEngine.trans (.of_mem_eq rfl rfl rfl rfl)))
  · exact .inl (s.keeps_eolEngine.trans (.of_mem_eq rfl rfl rfl rfl))

/-! ### Pixels -/

/-- A pixel that is not the last: where the unpacker goes next. -/
def State.pixelDone (s : State) (x y j : Word) : State :=
  let o := BitVec.ofNat 32 (s.eng.o.toNat + outPixelSize s.ctrl.flags)
  { s with
    eng := { s.eng with o := o, x := x, y := y, j := j }
    pos := { s.pos with outPos := o, curX := s.eng.x, curY := s.eng.j } }

/-- Everything the end of a pixel can be: the next pixel of the row, the next row, or success. -/
theorem State.nextPixel_cases (s : State) (d : Depth) :
    (s.eng.x.toNat + 1 < s.cfg.width.toNat ∧
      s.nextPixel d = s.pixelDone (.ofNat 32 (s.eng.x.toNat + 1)) s.eng.y s.eng.j) ∨
    (s.cfg.width.toNat ≤ s.eng.x.toNat + 1 ∧ s.eng.j.toNat + 1 < s.cfg.height.toNat ∧
      s.nextPixel d = s.pixelDone 0 (.ofNat 32 (s.cfg.height.toNat - 1 - (s.eng.j.toNat + 1)))
        (.ofNat 32 (s.eng.j.toNat + 1))) ∨
    ∃ u, s.Keeps u ∧ s.nextPixel d = u.finish := by
  unfold State.nextPixel
  dsimp only
  split
  · exact .inl ⟨‹_›, rfl⟩
  · split
    · exact .inr (.inl ⟨by omega, ‹_›, rfl⟩)
    · refine .inr (.inr ⟨_, ?_, rfl⟩)
      exact .of_mem_eq rfl rfl rfl rfl

theorem State.keeps_pixelDone (s : State) (x y j : Word) : s.Keeps (s.pixelDone x y j) :=
  .of_mem_eq rfl rfl rfl rfl

theorem pixelStep_moves {d : Depth} {color : State → Option Rgba} {s t : State}
    (h : pixelStep d color s = .next t) : s.Keeps t ∨ s.Ends t := by
  obtain ⟨hr, ⟨-, rfl⟩ | ⟨c, -, rfl⟩⟩ := pixelStep_cases h
  · exact .inr (s.ends_raise _)
  · have hk := (State.writesOut_storePixel hr c).keeps (State.running_out hr)
    obtain ⟨-, he⟩ | ⟨-, -, he⟩ | ⟨u, hu, he⟩ := (s.storePixel c).nextPixel_cases d <;> rw [he]
    · exact .inl (hk.trans (State.keeps_pixelDone _ _ _ _))
    · exact .inl (hk.trans (State.keeps_pixelDone _ _ _ _))
    · exact .inr (.finish (hk.trans hu))

/-! ### Every instruction and every turn of the engine -/

/-- While BUSY, every instruction that takes effect lets the operation go on or ends it. -/
theorem ExecForm.moves {s t : State} {o : Host.Outcome State Fault Refusal} (hf : ExecForm s o) (hb : s.busy = true)
    (h : o = .next t) : s.Keeps t ∨ s.Ends t := by
  cases hf with
  | legalCommand w op d f => exact runCommand_moves hb h (State.firstStep_moves hb op d f)
  | reservedCommand w => exact runCommand_moves hb h (.inr (s.ends_raise _))
  | pixels8 len n vs hn => exact rlePixels_moves h (writesOut_putPixels_put8 hn)
  | pixels4 len n vs hn => exact rlePixels_moves h (writesOut_putPixels_put4 hn)
  | pixels24 len n vs hn => exact rlePixels_moves h (writesOut_putPixels_put24 hn)
  | rleEol v => exact rleUnit_moves h (.inl (.of_mem_eq rfl rfl rfl rfl))
  | rleEob v => exact rleUnit_moves h (.inr (.finish (.of_mem_eq rfl rfl rfl rfl)))
  | rleDelta v dx dy => exact rleUnit_moves h (.inl (.of_mem_eq rfl rfl rfl rfl))
  | emitUnit u pixels items => exact State.emitUnit_moves h
  | encEol => exact execEncEol_moves h
  | encEob => exact execEncEob_moves h
  | runCode len effect he => exact runCode_moves he h
  | eolCode fill => exact execEol_moves h
  | pixel d color => exact pixelStep_moves h

/-- A running codec operation runs at its own depth (spec/30_encoding.md R112, R113). -/
theorem State.running_depth {s : State} {op : Operation} {d b : Depth} (h : s.running op d = true)
    (hb : op.depth? = some b) : b = d :=
  (configError_none (State.running_config h)).1 b hb

theorem State.fetchUnit_endOfInput {s : State} {v : Rle} (h : s.fetchUnit v = .endOfInput) :
    s.cfg.inLen.toNat ≤ s.eng.p.toNat := by
  unfold State.fetchUnit at h
  dsimp only at h
  split at h
  · omega
  · split at h <;> cases h

/-- The fetch of an RLE decode finds the end of the input only there. -/
theorem State.atInputEnd_of_fetchUnit {s : State} {v : Rle} {d : Depth} (hr : s.running (Rle.operation v) d = true)
    (h : s.fetchUnit v = .endOfInput) : s.AtInputEnd := by
  have hd : Rle.depth v = d := State.running_depth hr (by cases v <;> rfl)
  have hp : s.eng.p.toNat ≤ s.cfg.inLen.toNat := by
    have hc := State.running_cursor hr
    cases v <;> simpa [Rle.operation, State.cursorOk] using hc
  exact ⟨⟨v, hd ▸ hr⟩, BitVec.eq_of_toNat_eq (le_antisymm hp (State.fetchUnit_endOfInput h))⟩

theorem State.fetchCode_ne_endOfInput (s : State) : s.fetchCode ≠ .endOfInput := by
  unfold State.fetchCode
  dsimp only
  split <;> simp

theorem State.fetchPixel_ne_endOfInput (s : State) (d : Depth) : s.fetchPixel d ≠ .endOfInput := by
  unfold State.fetchPixel
  dsimp only
  split <;> simp

theorem State.fetchBody_endOfInput {s : State} {op : Operation} {d : Depth} (h : s.fetchBody op d = .endOfInput) :
    s.AtInputEnd := by
  unfold State.fetchBody at h
  split at h
  · rename_i hr
    cases op with
    | decRle8 => exact State.atInputEnd_of_fetchUnit (v := .rle8) hr h
    | decRle4 => exact State.atInputEnd_of_fetchUnit (v := .rle4) hr h
    | decRle24 => exact State.atInputEnd_of_fetchUnit (v := .rle24) hr h
    | decHuff => exact absurd h s.fetchCode_ne_endOfInput
    | encRle8 | encRle4 => cases h
    | unpack => exact absurd h (s.fetchPixel_ne_endOfInput d)
  · cases h

theorem State.fetch_endOfInput {s : State} (h : s.fetch = .endOfInput) : s.AtInputEnd := by
  unfold State.fetch at h
  split at h
  · cases h
  · split at h
    · exact State.fetchBody_endOfInput h
    · cases h
  all_goals cases h

/-- The end of an RLE decode's input ends the operation with EOBI (spec/40_rle_decode.md R156). -/
theorem State.ends_endOfInput {s : State} (h : s.AtInputEnd) : s.Ends s.endOfInput :=
  ⟨rfl, rfl, rfl, .inr ⟨rfl, h⟩, fun hm => State.settle_memOk hm⟩

theorem interpretStep_moves {s t : State} (hb : s.busy = true) (h : interpretStep s = .next t) :
    s.Keeps t ∨ s.Ends t := by
  obtain ⟨i, -, h⟩ | ⟨hf, rfl⟩ | ⟨c, -, rfl⟩ := interpretStep_cases h
  · exact (exec_form i s).moves hb h
  · exact .inr (State.ends_endOfInput (State.fetch_endOfInput hf))
  · exact .inr (s.ends_raise c)

/-- Everything a turn of the engine does to the control state. -/
theorem engineStep_moves {s t : State} (h : engineStep s = .next t) :
    t = s ∨ s.busy = true ∧ (s.Keeps t ∨ s.Ends t) := by
  obtain he | ⟨-, k, hp, he⟩ | ⟨-, hp, he⟩ := engineStep_cases s
  · cases he.symm.trans h
    exact .inl rfl
  · have hb : s.busy = true := by simp [State.busy, hp]
    exact .inr ⟨hb, .inl ((State.Quiet.drawn s).keeps.trans (zeroFillStep_keeps (s := s.drawn) hb (he.symm.trans h)))⟩
  · have hb : s.busy = true := by
      obtain hp | hp := hp <;> simp [State.busy, hp]
    exact .inr ⟨hb, (interpretStep_moves (s := s.drawn) hb (he.symm.trans h)).imp (State.Quiet.drawn s).keeps.trans
      (State.Quiet.drawn s).ends⟩

/-! ### The host's accesses -/

theorem State.quiet_hostWriteMem (s : State) (a : Word) (v : Byte) : s.Quiet (s.hostWriteMem a v) := by
  rw [State.hostWriteMem_eq]
  exact ⟨rfl, rfl, rfl, rfl, rfl, fun hm => Memory.wf_write hm a.isLt _⟩

theorem State.quiet_assertReset (s : State) : s.Quiet s.assertReset :=
  ⟨rfl, rfl, rfl, rfl, rfl, fun hm => State.settle_memOk hm⟩

theorem State.quiet_hostReadReg (s : State) (offset : Nat) : s.Quiet (s.hostReadReg offset) := by
  rw [State.hostReadReg_eq]
  exact ⟨rfl, rfl, rfl, rfl, rfl, id⟩

theorem State.quiet_hostReadIrq (s : State) : s.Quiet s.hostReadIrq := by
  rw [State.hostReadIrq_eq]
  exact ⟨rfl, rfl, rfl, rfl, rfl, id⟩

theorem State.quiet_hostReadMem (s : State) (a : Word) : s.Quiet (s.hostReadMem a) := by
  rw [State.hostReadMem_eq]
  exact ⟨rfl, rfl, rfl, rfl, rfl, id⟩

/-- Everything a host's access does to the control state: nothing, but for a register write and the end of a reset. -/
theorem hostStep_moves {inp : Input} {s t : State} (h : hostStep inp s = .next t) :
    s.Quiet t ∨ (∃ offset v, inp = .writeReg offset 4 v ∧ t = s.writeReg offset.toNat v) ∨
      (inp = .reset false ∧ s.plat.inReset = true ∧ t = s.deassertReset) := by
  obtain ⟨o, -, -, -, rfl⟩ | ⟨o, size, v, hi, hok, rfl⟩ | ⟨-, rfl⟩ | ⟨a, -, rfl⟩ | ⟨a, v, -, rfl⟩ | ⟨-, rfl⟩ |
    ⟨rfl, rfl⟩ | ⟨-, rfl⟩ := hostStep_cases h
  · exact .inl (s.quiet_hostReadReg _)
  · split
    · exact .inl (.refl s)
    · simp only [regAccessOk, Bool.and_eq_true, beq_iff_eq] at hok
      exact .inr (.inl ⟨o, v, hok.1 ▸ hi, rfl⟩)
  · exact .inl s.quiet_hostReadIrq
  · exact .inl (s.quiet_hostReadMem a)
  · exact .inl (s.quiet_hostWriteMem a v)
  · exact .inl s.quiet_assertReset
  · cases hr : s.plat.inReset with
    | true => exact .inr (.inr ⟨rfl, rfl, rfl⟩)
    | false =>
      rw [State.deassertReset_of_not_inReset hr]
      exact .inl (.refl s)
  · exact .inl (.refl _)

/-- Everything a register write does: nothing, a START, a CTRL write without START, an acknowledgement, or a
configuration write. -/
theorem State.writeReg_cases (s : State) (offset : Nat) (v : Word) :
    s.writeReg offset v = s ∨
    (offset = 0 ∧ s.busy = false ∧ v.getLsbD 0 = true ∧
      s.writeReg offset v = State.startAction { s with ctrl := Ctrl.ofWord v }) ∨
    (offset = 0 ∧ s.busy = false ∧ v.getLsbD 0 = false ∧ s.writeReg offset v = { s with ctrl := Ctrl.ofWord v }) ∨
    (offset = 4 ∧ v.getLsbD 1 = true ∧ s.writeReg offset v = s.acknowledge) ∨
    (s.busy = false ∧ s.writeReg offset v = { s with cfg := s.cfg.write offset v }) := by
  by_cases h4 : offset = 4
  · subst h4
    rw [State.writeReg_status_offset, State.writeStatus]
    split
    · exact .inr (.inr (.inr (.inl ⟨rfl, ‹_›, rfl⟩)))
    · exact .inl rfl
  · cases hb : s.busy with
    | true => exact .inl (State.writeReg_of_busy hb h4 v)
    | false =>
      by_cases h0 : offset = 0
      · subst h0
        cases hv : v.getLsbD 0 with
        | true => exact .inr (.inl ⟨rfl, rfl, rfl, State.writeCtrl_start hb hv⟩)
        | false => exact .inr (.inr (.inl ⟨rfl, rfl, rfl, State.writeCtrl_no_start hb hv⟩))
      · exact .inr (.inr (.inr (.inr ⟨rfl, by rw [State.writeReg_other h0 h4, hb]; rfl⟩)))

/-! ### Every step -/

/-- Everything a step does to the control state: after the pending inputs have moved on (`u`), a turn of the engine, or
the host's access that was first. -/
theorem step_moves {s t : State} (h : step s = .next t) :
    ∃ u, s.Quiet u ∧ (engineStep u = .next t ∨
      ∃ inp rest, s.plat.inputs = inp :: rest ∧ hostStep inp u = .next t) := by
  obtain ⟨-, he⟩ | ⟨rest, -, he⟩ | ⟨inp, rest, hi, -, he⟩ := step_cases s
  · exact ⟨s, .refl s, .inl (he.symm.trans h)⟩
  · exact ⟨_, .withInputs s rest, .inl (he.symm.trans h)⟩
  · exact ⟨_, .withInputs s rest, .inr ⟨inp, rest, hi, he.symm.trans h⟩⟩

/-- The events that can change BUSY and STATUS in a step from s to t (spec/10_state.md R63). -/
inductive FlagEvent (s t : State) : Prop
  | none (hs : t.status = s.status) (hb : t.busy = s.busy)
  | start (v : Word) (rest : List Input) (hi : s.plat.inputs = .writeReg 0x00 4 v :: rest) (hv : v.getLsbD 0 = true)
      (hidle : s.busy = false) (hs : t.status = .zero)
  | acknowledge (v : Word) (rest : List Input) (hi : s.plat.inputs = .writeReg 0x04 4 v :: rest)
      (hv : v.getLsbD 1 = true) (hs : t.status = { s.status with done := false }) (hb : t.busy = s.busy)
  | resetEnds (rest : List Input) (hi : s.plat.inputs = .reset false :: rest) (hs : t.status = .zero)
      (hb : t.busy = false)
  | operationEnds (hb : s.busy = true) (he : s.Ends t)

theorem step_flagEvent {s t : State} (h : step s = .next t) : FlagEvent s t := by
  obtain ⟨u, hq, h | ⟨inp, rest, hi, h⟩⟩ := step_moves h
  · obtain rfl | ⟨hb, hk | he⟩ := engineStep_moves h
    · exact .none hq.status hq.busy
    · exact .none (hk.status.trans hq.status) (hk.busy.trans hq.busy)
    · exact .operationEnds (hq.busy ▸ hb) (hq.ends he)
  · obtain hq' | ⟨offset, v, rfl, rfl⟩ | ⟨rfl, hr, rfl⟩ := hostStep_moves h
    · exact .none (hq'.status.trans hq.status) (hq'.busy.trans hq.busy)
    · obtain he | ⟨h0, hidle, hv, he⟩ | ⟨-, -, -, he⟩ | ⟨h4, hv, he⟩ | ⟨-, he⟩ := u.writeReg_cases offset.toNat v <;>
        rw [he]
      · exact .none hq.status hq.busy
      · obtain rfl : offset = 0x00 := BitVec.eq_of_toNat_eq h0
        exact .start v rest hi hv (hq.busy ▸ hidle) rfl
      · exact .none hq.status hq.busy
      · obtain rfl : offset = 0x04 := BitVec.eq_of_toNat_eq h4
        exact .acknowledge v rest hi hv (by rw [← hq.status]; rfl) hq.busy
      · exact .none hq.status hq.busy
    · obtain ⟨-, hs, -, -, hp, -⟩ := State.deassertReset_of_inReset hr
      exact .resetEnds rest hi hs (by simp [State.busy, hp])

theorem State.status_of_busy {s : State} (h : s.inv = true) (hb : s.busy = true) : s.status = .zero := by
  simp only [State.inv, State.statusOk, hb, Bool.and_eq_true, Bool.not_true, Bool.false_or, beq_iff_eq] at h
  exact h.1.2

/-- Settles O60: each flag under each event. -/
theorem flagsChangeOnlyBy : Obligations.FlagsChangeOnlyBy := by
  intro s t hinv h
  dsimp only
  cases step_flagEvent h with
  | none hs hb => simp_all
  | start v rest hi hv hidle hs => simp_all [Status.zero]
  | acknowledge v rest hi hv hs hb => simp_all
  | resetEnds rest hi hs hb => simp_all [Status.zero]
  | operationEnds hb he =>
    have hz := State.status_of_busy hinv hb
    refine ⟨?_, fun _ _ => .inl he.done, fun _ _ => ⟨hb, he.busy⟩, ?_, ?_, ?_, fun _ => .inl ⟨hb, he.busy⟩⟩
    · simp [hb]
    · simp [hz, Status.zero]
    · intro h0 h1
      obtain h' | ⟨-, hr, hp⟩ := he.eobi
      · rw [h', h0] at h1
        cases h1
      · exact ⟨hr, hp, he.busy⟩
    · simp [hz, Status.zero]

/-! ### STATUS writes, and the configuration while BUSY -/

/-- A STATUS write has nothing to clear when DONE is 0. -/
theorem State.writeStatus_of_not_done {s : State} (h : s.status.done = false) (v : Word) : s.writeStatus v = s := by
  rw [State.writeStatus_eq, h, Bool.false_and, ← h]

/-- Settles O47: a STATUS write is an acknowledgement or nothing, and of the events of R63 only a START and the end of a
reset change ERRCODE or EOBI of an idle block. -/
theorem statusWrite : Obligations.StatusWrite := by
  refine ⟨fun s v rest hr h => ?_, fun s t hb h hstart hreset => ?_⟩
  · have hstep : step s = .next ((s.withInputs rest).writeStatus v) := step_writeReg (offset := 0x04) rfl hr h
    rw [hstep]
    refine ⟨by rw [State.writeStatus_eq]; rfl, fun hinv hb => ?_⟩
    have hd : (s.withInputs rest).status.done = false := by
      rw [State.withInputs_status, State.status_of_busy hinv hb]
      rfl
    rw [State.writeStatus_of_not_done hd]
  · have herr : t.status.errcode = s.status.errcode → t.err = s.err := fun he => by rw [State.err, State.err, he]
    cases step_flagEvent h with
    | none hs => exact ⟨by rw [hs], by rw [hs], herr (by rw [hs])⟩
    | start v rest hi hv =>
      rw [hstart v rest hi] at hv
      cases hv
    | acknowledge v rest hi hv hs => exact ⟨by rw [hs], by rw [hs], herr (by rw [hs])⟩
    | resetEnds rest hi => exact absurd hi (hreset rest)
    | operationEnds hb' => simp [hb] at hb'

/-- While BUSY no step but the end of a reset changes the configuration or CTRL. -/
theorem step_config_of_busy {s t : State} (hb : s.busy = true) (hreset : ∀ rest, s.plat.inputs ≠ .reset false :: rest)
    (h : step s = .next t) : t.cfg = s.cfg ∧ t.ctrl = s.ctrl := by
  obtain ⟨u, hq, h | ⟨inp, rest, hi, h⟩⟩ := step_moves h
  · refine ⟨(engineStep_onlyOut h).cfg.trans hq.cfg, ?_⟩
    obtain rfl | ⟨-, hk | he⟩ := engineStep_moves h
    · exact hq.ctrl
    · exact hk.ctrl.trans hq.ctrl
    · exact he.ctrl.trans hq.ctrl
  · have hbu : u.busy = true := hq.busy.trans hb
    obtain hq' | ⟨offset, v, rfl, rfl⟩ | ⟨rfl, -, -⟩ := hostStep_moves h
    · exact ⟨hq'.cfg.trans hq.cfg, hq'.ctrl.trans hq.ctrl⟩
    · by_cases h4 : offset.toNat = 4
      · rw [h4, State.writeReg_status_offset, State.writeStatus_eq]
        exact ⟨hq.cfg, hq.ctrl⟩
      · rw [State.writeReg_of_busy hbu h4]
        exact ⟨hq.cfg, hq.ctrl⟩
    · exact absurd hi (hreset rest)

/-- Settles O48: writes are ignored while BUSY, no step but the end of a reset changes the configuration, and reads are
those of R59. -/
theorem configConstantWhileBusy : Obligations.ConfigConstantWhileBusy := by
  intro s hb
  refine ⟨fun offset v rest h4 ho hi => ?_, fun t hreset h => step_config_of_busy hb hreset h,
    fun offset rest ho hr hi => ?_⟩
  · have hn4 : offset.toNat ≠ 4 := fun he => h4 (BitVec.eq_of_toNat_eq he)
    cases hr : s.plat.inReset with
    | true => exact step_writeReg_inReset ho hr hi
    | false => rw [step_writeReg ho hr hi, State.writeReg_of_busy (s.withInputs_busy rest ▸ hb) hn4]
  · refine ⟨_, step_readReg ho hi, ?_⟩
    rw [State.hostReadReg_eq]
    refine ⟨?_, rfl, rfl, rfl⟩
    rw [State.withInputs_plat_inReset, hr]
    rfl

end Sys2Proof.Machine
end

section
/-!
PROOF. The invariant (`State.inv`, Safety.lean) is kept by every step. A step that ends an operation leaves an idle
block, of which only memory's form is asked; one that does not keeps STATUS (`State.Keeps`), and what its phase asks is
shown for each kind of operation: RLE decode, unpack, Huffman decode, encode.
-/

namespace Sys2Proof.Machine

/-- A number that fits a word is kept by it. -/
theorem toNat_ofNat_of_lt {w n : Nat} (h : n < 2 ^ w) : (BitVec.ofNat w n).toNat = n := by
  rw [BitVec.toNat_ofNat, Nat.mod_eq_of_lt h]

/-! ### The invariant in parts -/

theorem State.inv_iff (s : State) : s.inv = true ↔ s.memOk = true ∧ s.statusOk = true ∧ s.phaseOk = true := by
  simp [State.inv, and_assoc]

theorem State.phaseOk_of_not_busy {s : State} (h : s.busy = false) : s.phaseOk = true := by
  have hp : s.eng.phase = .idle := by simpa [State.busy] using h
  simp [State.phaseOk, hp]

theorem State.statusOk_of_not_busy {s : State} (h : s.busy = false) : s.statusOk = true := by
  simp [State.statusOk, h]

/-- The first step's hidden state is a function of the configuration and the engine. -/
theorem State.initialise_eng_congr {s t : State} (hcfg : t.cfg = s.cfg) (heng : t.eng = s.eng) (op : Operation) :
    (t.initialise op).eng = (s.initialise op).eng := by
  cases op <;> simp only [State.initialise, hcfg, heng]

theorem State.Quiet.fillOk {s t : State} (h : s.Quiet t) (k : Word) : t.fillOk k = s.fillOk k := by
  simp only [State.fillOk, State.initialise_eng_congr h.cfg h.eng, h.ctrl, h.cfg, h.eng]

theorem State.Quiet.bodyOk {s t : State} (h : s.Quiet t) : t.bodyOk = s.bodyOk := by
  obtain ⟨⟩ := s
  obtain ⟨⟩ := t
  obtain ⟨rfl, rfl, rfl, rfl, rfl, -⟩ := h
  rfl

theorem State.Quiet.phaseOk {s t : State} (h : s.Quiet t) : t.phaseOk = s.phaseOk := by
  simp only [State.phaseOk, h.eng, h.pos, h.fillOk, h.bodyOk]

theorem State.Keeps.statusOk {s t : State} (h : s.Keeps t) : t.statusOk = s.statusOk := by
  rw [State.statusOk, State.statusOk, h.busy, h.status]

theorem State.Keeps.inv {s t : State} (h : s.Keeps t) (hi : s.inv = true) (hp : t.phaseOk = true) : t.inv = true := by
  obtain ⟨hm, hs, -⟩ := s.inv_iff.mp hi
  exact t.inv_iff.mpr ⟨h.memOk hm, h.statusOk.trans hs, hp⟩

theorem State.Quiet.inv {s t : State} (h : s.Quiet t) (hi : s.inv = true) : t.inv = true :=
  h.keeps.inv hi (h.phaseOk.trans (s.inv_iff.mp hi).2.2)

/-- An idle block meets the invariant when its memory does. -/
theorem State.inv_of_not_busy {s : State} (hb : s.busy = false) (hm : s.memOk = true) : s.inv = true :=
  s.inv_iff.mpr ⟨hm, State.statusOk_of_not_busy hb, State.phaseOk_of_not_busy hb⟩

theorem State.WritesOut.quiet {s t : State} (h : s.WritesOut t)
    (ho : s.cfg.outBase.toNat + s.cfg.outLen.toNat ≤ Config.memSize) : s.Quiet t where
  ctrl := by rw [h.eq]
  status := by rw [h.eq]
  cfg := h.cfg
  pos := by rw [h.eq]
  eng := by rw [h.eq]
  memOk := h.memOk ho

/-! ### The body of an operation -/

/-- What the invariant asks in the body of an operation beside that it runs. -/
def State.operationOk (s : State) : Operation → Bool
  | .decRle8 | .decRle4 | .decRle24 => s.rleOk
  | .decHuff => s.g3Ok
  | .encRle8 | .encRle4 => s.encOk
  | .unpack => s.unpackOk

theorem State.phaseOk_of_running {s : State} {op : Operation} {d : Depth} (h : s.running op d = true) :
    s.phaseOk = s.operationOk op := by
  obtain ⟨ho, hd⟩ := State.running_ctrl h
  simp only [State.phaseOk, State.running_phase h, State.bodyOk, ho, hd, Operation.ofCode_code, Depth.ofCode_code, h,
    Bool.true_and]
  cases op <;> rfl

/-- An operation goes on running while its cursor stays inside what it reads. -/
theorem State.running_of_eq {s t : State} {op : Operation} {d : Depth} (h : s.running op d = true)
    (hctrl : t.ctrl = s.ctrl) (hcfg : t.cfg = s.cfg) (hp : t.eng.phase = s.eng.phase) (hc : t.cursorOk op = true) :
    t.running op d = true := by
  simp only [State.running, Bool.and_eq_true] at h ⊢
  rw [hctrl, hcfg, hp]
  exact ⟨h.1, hc⟩

/-! ### RLE decode -/

theorem State.phaseOk_rle {s : State} {v : Rle} {d : Depth} (hr : s.running (Rle.operation v) d = true) :
    s.phaseOk = s.rleOk := by
  rw [State.phaseOk_of_running hr]
  cases v <;> rfl

theorem State.rleOk_iff (s : State) :
    s.rleOk = true ↔ s.pos.inPos = s.eng.p ∧ s.pos.outPos = 0 ∧ s.pos.curX = s.eng.x ∧ s.pos.curY = s.eng.y := by
  simp [State.rleOk, and_assoc]

/-- The end of a unit inside the input keeps what the phase asks of an RLE decode. -/
theorem State.phaseOk_moveTo {s : State} {v : Rle} {d : Depth} {p x y : Nat}
    (hr : s.running (Rle.operation v) d = true) (hs : s.phaseOk = true) (hp : p ≤ s.cfg.inLen.toNat) :
    (s.moveTo p x y).phaseOk = true := by
  have hc : (s.moveTo p x y).cursorOk (Rle.operation v) = true := by
    have hle : p % 2 ^ 32 ≤ s.cfg.inLen.toNat := (Nat.mod_le _ _).trans hp
    cases v <;> simpa [Rle.operation, State.cursorOk] using hle
  have hr' : (s.moveTo p x y).running (Rle.operation v) d = true := State.running_of_eq hr rfl rfl rfl hc
  rw [State.phaseOk_rle hr, State.rleOk_iff] at hs
  rw [State.phaseOk_rle hr', State.rleOk_iff]
  exact ⟨rfl, hs.2.1, rfl, rfl⟩

theorem rlePixels_phaseOk {v : Rle} {len n : Nat} {write : State → State} {s t : State}
    (h : rlePixels v len n write s = .next t) (hs : s.phaseOk = true)
    (hw : s.lastByte (Rle.depth v) n < s.cfg.outLen.toNat → s.WritesOut (write s)) : t.phaseOk = true := by
  obtain ⟨hr, ⟨c, rfl⟩ | ⟨hl, hc, rfl⟩⟩ := rlePixels_cases h
  · exact State.phaseOk_of_not_busy rfl
  · have hq := (hw (State.lastByte_lt_of_checkWrite hc)).quiet (State.running_out hr)
    exact State.phaseOk_moveTo ((hq.running _ _).trans hr) (hq.phaseOk.trans hs) (hq.cfg ▸ hl)

theorem rleEol_phaseOk {v : Rle} {s t : State} (h : rleEol v s = .next t) (hs : s.phaseOk = true) :
    t.phaseOk = true := by
  obtain ⟨hr, ⟨-, rfl⟩ | ⟨hl, rfl⟩⟩ := rleUnit_cases h
  · exact State.phaseOk_of_not_busy rfl
  · exact State.phaseOk_moveTo hr hs hl

theorem rleEob_phaseOk {v : Rle} {s t : State} (h : rleEob v s = .next t) : t.phaseOk = true := by
  obtain ⟨-, ⟨-, rfl⟩ | ⟨-, rfl⟩⟩ := rleUnit_cases h <;> exact State.phaseOk_of_not_busy rfl

theorem rleDelta_phaseOk {v : Rle} {dx dy : Byte} {s t : State} (h : rleDelta v dx dy s = .next t)
    (hs : s.phaseOk = true) : t.phaseOk = true := by
  obtain ⟨hr, ⟨-, rfl⟩ | ⟨hl, rfl⟩⟩ := rleUnit_cases h
  · exact State.phaseOk_of_not_busy rfl
  · exact State.phaseOk_moveTo hr hs hl

/-! ### Unpack -/

theorem State.unpackOk_iff (s : State) :
    s.unpackOk = true ↔
      s.eng.o.toNat = (s.eng.j.toNat * s.cfg.width.toNat + s.eng.x.toNat) * outPixelSize s.ctrl.flags ∧
      s.pos.outPos = s.eng.o ∧ s.pos.inPos = 0 ∧
      (if 0 < s.eng.x.toNat then s.pos.curX.toNat = s.eng.x.toNat - 1 ∧ s.pos.curY.toNat = s.eng.j.toNat
       else if 0 < s.eng.j.toNat then
        s.pos.curX.toNat = s.cfg.width.toNat - 1 ∧ s.pos.curY.toNat = s.eng.j.toNat - 1
       else s.pos.curX = 0 ∧ s.pos.curY = 0) := by
  unfold State.unpackOk
  dsimp only
  split
  · simp [and_assoc]
  · split <;> simp [and_assoc]

/-- The output offset behind a pixel is a 32-bit number: the pixel lies inside OUT. -/
theorem State.nextOffset_toNat {s : State} {d : Depth} (hr : s.running .unpack d = true) (hs : s.unpackOk = true) :
    (BitVec.ofNat 32 (s.eng.o.toNat + outPixelSize s.ctrl.flags)).toNat =
      (s.eng.j.toNat * s.cfg.width.toNat + s.eng.x.toNat + 1) * outPixelSize s.ctrl.flags := by
  have ho := (s.unpackOk_iff.mp hs).1
  have hin := State.running_pixel_in_out hr
  rw [ho, toNat_ofNat_of_lt (hin.trans_lt s.cfg.outLen.isLt), Nat.succ_mul]

/-- After a pixel the cursor is at (x, j) of file row y, the pixel before it shown by CUR_X and CUR_Y. -/
theorem State.phaseOk_pixelDone {s : State} {d : Depth} {x y j : Word} (hr : s.running .unpack d = true)
    (hs : s.phaseOk = true) (hx : x.toNat < s.cfg.width.toNat) (hy : y.toNat + j.toNat + 1 = s.cfg.height.toNat)
    (ho : j.toNat * s.cfg.width.toNat + x.toNat = s.eng.j.toNat * s.cfg.width.toNat + s.eng.x.toNat + 1)
    (hcur : x.toNat = s.eng.x.toNat + 1 ∧ j = s.eng.j ∨
      x = 0 ∧ s.eng.x.toNat + 1 = s.cfg.width.toNat ∧ j.toNat = s.eng.j.toNat + 1) :
    (s.pixelDone x y j).phaseOk = true := by
  have hc : (s.pixelDone x y j).cursorOk .unpack = true := by
    simp [State.cursorOk, State.pixelDone, hx, hy]
  have hr' : (s.pixelDone x y j).running .unpack d = true := State.running_of_eq hr rfl rfl rfl hc
  have hu : s.unpackOk = true := (State.phaseOk_of_running hr).symm.trans hs
  rw [State.phaseOk_of_running hr']
  refine (State.unpackOk_iff _).mpr ⟨?_, rfl, (s.unpackOk_iff.mp hu).2.2.1, ?_⟩
  · show (BitVec.ofNat 32 (s.eng.o.toNat + outPixelSize s.ctrl.flags)).toNat =
      (j.toNat * s.cfg.width.toNat + x.toNat) * outPixelSize s.ctrl.flags
    rw [State.nextOffset_toNat hr hu, ho]
  · show if 0 < x.toNat then s.eng.x.toNat = x.toNat - 1 ∧ s.eng.j.toNat = j.toNat
      else if 0 < j.toNat then s.eng.x.toNat = s.cfg.width.toNat - 1 ∧ s.eng.j.toNat = j.toNat - 1
      else s.eng.x = 0 ∧ s.eng.j = 0
    obtain ⟨hx1, rfl⟩ | ⟨rfl, hw, hj⟩ := hcur
    · rw [if_pos (by omega)]
      omega
    · rw [if_neg (by simp), if_pos (by omega)]
      omega

theorem State.phaseOk_nextPixel {s : State} {d : Depth} (hr : s.running .unpack d = true) (hs : s.phaseOk = true) :
    (s.nextPixel d).phaseOk = true := by
  obtain ⟨hx, hy, -⟩ := State.running_unpack hr
  have hh := s.cfg.height.isLt
  have hw := s.cfg.width.isLt
  obtain ⟨hx1, he⟩ | ⟨hx1, hj, he⟩ | ⟨u, -, he⟩ := s.nextPixel_cases d <;> rw [he]
  · have hxn : (BitVec.ofNat 32 (s.eng.x.toNat + 1)).toNat = s.eng.x.toNat + 1 := toNat_ofNat_of_lt (by omega)
    exact State.phaseOk_pixelDone hr hs (by omega) hy (by omega) (.inl ⟨hxn, rfl⟩)
  · have hjn : (BitVec.ofNat 32 (s.eng.j.toNat + 1)).toNat = s.eng.j.toNat + 1 := toNat_ofNat_of_lt (by omega)
    have hyn : (BitVec.ofNat 32 (s.cfg.height.toNat - 1 - (s.eng.j.toNat + 1))).toNat =
        s.cfg.height.toNat - 1 - (s.eng.j.toNat + 1) := toNat_ofNat_of_lt (by omega)
    have hwx : s.eng.x.toNat + 1 = s.cfg.width.toNat := by omega
    refine State.phaseOk_pixelDone hr hs (by simp; omega) (by omega) ?_ (.inr ⟨rfl, hwx, hjn⟩)
    rw [hjn, Nat.succ_mul, Nat.add_assoc _ _ 1, hwx]
    rfl
  · exact State.phaseOk_of_not_busy rfl

theorem pixelStep_phaseOk {d : Depth} {color : State → Option Rgba} {s t : State}
    (h : pixelStep d color s = .next t) (hs : s.phaseOk = true) : t.phaseOk = true := by
  obtain ⟨hr, ⟨-, rfl⟩ | ⟨c, -, rfl⟩⟩ := pixelStep_cases h
  · exact State.phaseOk_of_not_busy rfl
  · have hq := (State.writesOut_storePixel hr c).quiet (State.running_out hr)
    exact State.phaseOk_nextPixel ((hq.running _ _).trans hr) (hq.phaseOk.trans hs)

/-! ### Huffman decode -/

theorem State.g3Ok_iff (s : State) :
    s.g3Ok = true ↔ s.pos.inPos.toNat = (s.eng.q.toNat + 7) / 8 ∧ s.pos.outPos = 0 ∧ s.pos.curX = s.eng.x ∧
      s.pos.curY = s.eng.y ∧ s.eng.eolRun.toNat < 6 ∧ s.eng.x.toNat + s.eng.pend.toNat ≤ s.cfg.width.toNat := by
  simp only [State.g3Ok, Bool.and_eq_true, beq_iff_eq, decide_eq_true_eq, and_assoc]
  exact .rfl

/-- The bits that a code takes lie in the input. -/
def State.bitsLeft (s : State) (len : Nat) : Prop := s.eng.q.toNat + len ≤ 8 * s.cfg.inLen.toNat

/-- The end of a code inside the input, the line's conditions given. -/
theorem State.phaseOk_consumeCode {u : State} {len : Nat} (hr : u.running .decHuff .d1 = true) (hq : u.bitsLeft len)
    (ho : u.pos.outPos = 0) (he : u.eng.eolRun.toNat < 6)
    (hx : u.eng.x.toNat + u.eng.pend.toNat ≤ u.cfg.width.toNat) : (u.consumeCode len).phaseOk = true := by
  have hin := u.cfg.inLen.isLt
  unfold State.bitsLeft at hq
  have hqn : (BitVec.ofNat 35 (u.eng.q.toNat + len)).toNat = u.eng.q.toNat + len := toNat_ofNat_of_lt (by omega)
  have hc : (u.consumeCode len).cursorOk .decHuff = true := by
    simp only [State.cursorOk, State.consumeCode_eng, State.consumeCode_cfg, hqn, decide_eq_true_eq]
    exact hq
  have hr' : (u.consumeCode len).running .decHuff .d1 = true := State.running_of_eq hr rfl rfl rfl hc
  rw [State.phaseOk_of_running hr']
  refine (State.g3Ok_iff _).mpr ⟨?_, ho, rfl, rfl, he, hx⟩
  rw [State.consumeCode_pos_inPos, State.consumeCode_eng, hqn, toNat_ofNat_of_lt (by omega)]

/-- The effect of a run code keeps the decode running and the line inside the width. -/
theorem CodeEffect.phaseOk_consumeCode {effect : State → Except ErrCode State} (hef : CodeEffect effect) {s u : State}
    {len : Nat} (hr : s.running .decHuff .d1 = true) (hs : s.phaseOk = true) (hq : s.bitsLeft len)
    (h : effect s = .ok u) : (u.consumeCode len).phaseOk = true := by
  rw [State.phaseOk_of_running hr] at hs
  obtain ⟨-, ho, -, -, he, hx⟩ := s.g3Ok_iff.mp hs
  have hw := s.cfg.width.isLt
  cases hef with
  | terminating n =>
    obtain ⟨hxw, -, rfl⟩ := terminateRun_ok h
    obtain ⟨hctrl, -, hcfg, hpos, -, -⟩ := s.putBitRun_frame (s.eng.pend.toNat + n) s.eng.x.toNat s.eng.y.toNat
      (Color.bit s.eng.color)
    refine State.phaseOk_consumeCode (State.running_of_eq hr hctrl hcfg rfl ?_) ?_ (hpos ▸ ho) (by simp) ?_
    · simpa [State.cursorOk, hcfg] using State.running_cursor hr
    · simpa [State.bitsLeft, hcfg] using hq
    · simp only [hcfg, BitVec.ofNat_eq_ofNat, BitVec.toNat_ofNat]
      omega
  | makeUp n =>
    obtain ⟨hxw, rfl⟩ := makeUpRun_ok h
    refine State.phaseOk_consumeCode (State.running_of_eq hr rfl rfl rfl (State.running_cursor hr)) hq ho (by simp) ?_
    simp only [BitVec.toNat_ofNat]
    omega

theorem runCode_phaseOk {len : Nat} {effect : State → Except ErrCode State} (hef : CodeEffect effect) {s t : State}
    (h : runCode len effect s = .next t) (hs : s.phaseOk = true) (hq : s.bitsLeft len) : t.phaseOk = true := by
  obtain ⟨hr, ⟨c, rfl⟩ | ⟨-, u, hu, rfl⟩⟩ := runCode_cases h
  · exact State.phaseOk_of_not_busy rfl
  · exact hef.phaseOk_consumeCode hr hs hq hu

/-- The line bookkeeping of an EOL code that is not the sixth in a row (spec/41_g3_decode.md R204, R205, R210). -/
theorem eolEngine_eolRun_lt {e : Engine} (h : e.eolRun.toNat < 6) (hn : (eolEngine e).eolRun.toNat ≠ 6) :
    (eolEngine e).eolRun.toNat < 6 := by
  unfold eolEngine at hn ⊢
  split
  · split
    · simp
    · simp_all
      omega
  · simp

theorem eolEngine_x_le (e : Engine) : (eolEngine e).x.toNat ≤ e.x.toNat := by
  unfold eolEngine
  split
  · split <;> simp
  · rfl

theorem eolEngine_pend (e : Engine) : (eolEngine e).pend = e.pend := by
  unfold eolEngine
  split
  · split <;> rfl
  · rfl

theorem eolEngine_q (e : Engine) : (eolEngine e).q = e.q := by
  unfold eolEngine
  split
  · split <;> rfl
  · rfl

theorem execEol_phaseOk {fill : Nat} {s t : State} (h : execEol fill s = .next t) (hs : s.phaseOk = true)
    (hq : s.bitsLeft (12 + fill)) : t.phaseOk = true := by
  obtain ⟨hr, ⟨-, rfl⟩ | ⟨-, -, rfl⟩ | ⟨-, hn, rfl⟩⟩ := execEol_cases h
  · exact State.phaseOk_of_not_busy rfl
  · exact State.phaseOk_of_not_busy rfl
  · rw [State.phaseOk_of_running hr] at hs
    obtain ⟨-, ho, -, -, he, hx⟩ := s.g3Ok_iff.mp hs
    refine State.phaseOk_consumeCode (State.running_of_eq hr rfl rfl (eolEngine_phase _) ?_) ?_ ho
      (eolEngine_eolRun_lt he hn) ?_
    · simpa [State.cursorOk, eolEngine_q] using State.running_cursor hr
    · simpa [State.bitsLeft, eolEngine_q] using hq
    · rw [eolEngine_pend]
      exact (Nat.add_le_add_right (eolEngine_x_le _) _).trans hx

/-- A code that is read: a row of the set, or an EOL, whose length is that of the bits taken. -/
theorem readCode_ok {rows : List CodeRow} {bits t : List Bool} {len val : Nat} {i : Instr}
    (h : readCode rows len val bits = .ok (i, t)) :
    (∃ r ∈ rows, i = r.instr ∧ r.len + t.length = len + bits.length) ∨
      ∃ fill, i = .eol fill ∧ 12 + fill + t.length = len + bits.length := by
  induction bits generalizing len val with
  | nil => cases h
  | cons b bits ih =>
    unfold readCode at h
    dsimp only at h
    rw [List.length_cons, Nat.add_comm bits.length, ← Nat.add_assoc]
    split at h
    · rename_i hz
      cases h
      exact .inr ⟨_, rfl, by omega⟩
    · split at h
      · rename_i r hf
        cases h
        have hr : r.len = len + 1 := by
          have := List.find?_some hf
          simp only [Bool.and_eq_true, beq_iff_eq] at this
          exact this.1
        exact .inl ⟨r, List.mem_of_find?_eq_some hf, rfl, by rw [hr]⟩
      · split at h
        · exact ih h
        · cases h

theorem State.inBits_length (s : State) (k n : Nat) : (s.inBits k n).length = n := by
  induction n generalizing k with
  | zero => rfl
  | succ n ih => simp [State.inBits, ih]

/-- The code that is fetched lies in the input. -/
theorem State.fetchCode_run {s : State} {i : Instr} (h : s.fetchCode = .run i)
    (hc : s.eng.q.toNat ≤ 8 * s.cfg.inLen.toNat) :
    (∃ r ∈ s.g3.rows s.eng.color, i = r.instr ∧ s.bitsLeft r.len) ∨ ∃ fill, i = .eol fill ∧ s.bitsLeft (12 + fill) := by
  unfold State.fetchCode at h
  dsimp only at h
  split at h
  · rename_i j rest hd
    cases h
    have hl := s.inBits_length s.eng.q.toNat (8 * s.cfg.inLen.toNat - s.eng.q.toNat)
    unfold State.bitsLeft
    obtain ⟨r, hr, hi, hlen⟩ | ⟨fill, hi, hlen⟩ := readCode_ok hd
    · exact .inl ⟨r, hr, hi, by omega⟩
    · exact .inr ⟨fill, hi, by omega⟩
  · cases h

theorem exec_fetchCode_phaseOk {s t : State} {i : Instr} (hr : s.running .decHuff .d1 = true) (hs : s.phaseOk = true)
    (hf : s.fetch = .run i) (h : exec i s = .next t) : t.phaseOk = true := by
  have hc : s.eng.q.toNat ≤ 8 * s.cfg.inLen.toNat := by
    simpa [State.cursorOk] using State.running_cursor hr
  rw [State.fetch_huff hr] at hf
  obtain ⟨r, hm, rfl, hq⟩ | ⟨fill, rfl, hq⟩ := State.fetchCode_run hf hc
  · rcases List.mem_append.mp hm with hm | hm
    · exact runCode_phaseOk (.terminating r.run) ((exec_terminating hm).symm.trans h) hs hq
    · exact runCode_phaseOk (.makeUp r.run) ((exec_makeUp hm).symm.trans h) hs hq
  · exact execEol_phaseOk h hs hq

/-! ### Encode -/

theorem State.phaseOk_enc {s : State} (hr : s.encoding) : s.phaseOk = s.encOk := by
  rcases hr with hr | hr <;> exact State.phaseOk_of_running hr

theorem State.phaseOk_of_encOk {s : State} (hr : s.encoding) (h : s.encOk = true) : s.phaseOk = true :=
  (State.phaseOk_enc hr).trans h

theorem State.encOk_iff (s : State) :
    s.encOk = true ↔ s.pos.outPos = s.eng.o ∧ s.eng.o.toNat ≤ s.cfg.outLen.toNat ∧
      s.pos.inPos.toNat = s.eng.r.toNat * s.encStride ∧ s.pos.curY = s.eng.r ∧ s.eng.i.toNat ≤ s.rowItems ∧
      s.eng.cnt.toNat = s.pixelsOf s.eng.i.toNat ∧ s.pos.curX = s.eng.cnt := by
  simp [State.encOk, and_assoc]

theorem State.rowItems_congr {s t : State} (hctrl : t.ctrl = s.ctrl) (hcfg : t.cfg = s.cfg) :
    t.rowItems = s.rowItems := by
  rw [State.rowItems, State.rowItems, State.encodes4, State.encodes4, hctrl, hcfg]

theorem State.pixelsOf_congr {s t : State} (hctrl : t.ctrl = s.ctrl) (hcfg : t.cfg = s.cfg) (i : Nat) :
    t.pixelsOf i = s.pixelsOf i := by
  rw [State.pixelsOf, State.pixelsOf, State.encodes4, State.encodes4, hctrl, hcfg]

theorem State.encStride_congr {s t : State} (hctrl : t.ctrl = s.ctrl) (hcfg : t.cfg = s.cfg) :
    t.encStride = s.encStride := by
  rw [State.encStride, State.encStride, State.encDepth, State.encDepth, State.encodes4, State.encodes4, hctrl, hcfg]

theorem State.rowItems_le (s : State) : s.rowItems ≤ s.cfg.width.toNat := by
  unfold State.rowItems rowBytes4
  split <;> omega

theorem State.pixelsOf_le {s : State} {i : Nat} (h : i ≤ s.rowItems) : s.pixelsOf i ≤ s.cfg.width.toNat := by
  have := s.rowItems_le
  unfold State.pixelsOf
  split <;> omega

/-- A unit for so many pixels in so many items fits the row, and its pixels are those of its items. -/
def State.fitsRow (s : State) (pixels items : Nat) : Prop :=
  s.eng.i.toNat + items ≤ s.rowItems ∧ s.eng.cnt.toNat + pixels = s.pixelsOf (s.eng.i.toNat + items)

/-- An encoder goes on running while its row stays inside the image. -/
theorem State.encoding_of_eq {s t : State} (h : s.encoding) (hctrl : t.ctrl = s.ctrl) (hcfg : t.cfg = s.cfg)
    (hp : t.eng.phase = s.eng.phase) (hrow : t.eng.r.toNat < s.cfg.height.toNat) : t.encoding :=
  h.imp (State.running_of_eq · hctrl hcfg hp (by simp [State.cursorOk, hcfg, hrow]))
    (State.running_of_eq · hctrl hcfg hp (by simp [State.cursorOk, hcfg, hrow]))

theorem State.encoding_row {s : State} (h : s.encoding) : s.eng.r.toNat < s.cfg.height.toNat := by
  rcases h with h | h <;> simpa [State.cursorOk] using State.running_cursor h

/-- An emitted unit: the stream is longer by the unit, inside OUT, and all else but memory stays. -/
theorem State.emit_ok {s e : State} {u : List Byte} (h : s.emit u = some e) :
    s.eng.o.toNat + u.length ≤ s.cfg.outLen.toNat ∧ e.ctrl = s.ctrl ∧ e.cfg = s.cfg ∧
      e.eng = { s.eng with o := .ofNat 32 (s.eng.o.toNat + u.length) } ∧
      e.pos = { s.pos with outPos := .ofNat 32 (s.eng.o.toNat + u.length) } := by
  obtain ⟨-, hn⟩ | ⟨hl, hs⟩ := s.emit_cases u
  · cases hn.symm.trans h
  · cases hs.symm.trans h
    exact ⟨hl, State.outWriteList_ctrl _ _ _, State.outWriteList_cfg _ _ _, rfl, rfl⟩

/-- Emitting keeps the encoder running and what its phase asks. -/
theorem State.emit_encOk {s e : State} {u : List Byte} (hr : s.encoding) (hs : s.encOk = true) (h : s.emit u = some e) :
    e.encoding ∧ e.encOk = true := by
  obtain ⟨hl, hctrl, hcfg, heng, hpos⟩ := State.emit_ok h
  obtain ⟨-, -, hin, hy, hi, hcnt, hx⟩ := s.encOk_iff.mp hs
  have ho := s.cfg.outLen.isLt
  refine ⟨State.encoding_of_eq hr hctrl hcfg (by rw [heng]) (by rw [heng]; exact State.encoding_row hr),
    e.encOk_iff.mpr ?_⟩
  rw [State.encStride_congr hctrl hcfg, State.rowItems_congr hctrl hcfg, State.pixelsOf_congr hctrl hcfg, hcfg, heng,
    hpos]
  refine ⟨rfl, ?_, hin, hy, hi, hcnt, hx⟩
  rwa [toNat_ofNat_of_lt (by omega)]

/-- The cursor past a unit that fits the row. -/
theorem State.phaseOk_cover {s : State} {pixels items : Nat} (hr : s.encoding) (hs : s.encOk = true)
    (hf : s.fitsRow pixels items) : (s.cover pixels items).phaseOk = true := by
  obtain ⟨hitems, hpix⟩ := hf
  obtain ⟨ho, hol, hin, hy, -, -, -⟩ := s.encOk_iff.mp hs
  have hw := s.cfg.width.isLt
  have hrow := s.rowItems_le
  have hple := State.pixelsOf_le hitems
  have hin' : (BitVec.ofNat 32 (s.eng.i.toNat + items)).toNat = s.eng.i.toNat + items := toNat_ofNat_of_lt (by omega)
  have hcn' : (BitVec.ofNat 32 (s.eng.cnt.toNat + pixels)).toNat = s.eng.cnt.toNat + pixels := toNat_ofNat_of_lt (by omega)
  refine State.phaseOk_of_encOk (State.encoding_of_eq hr rfl rfl rfl (State.encoding_row hr)) ?_
  refine (State.encOk_iff _).mpr ⟨ho, hol, hin, hy, ?_, ?_, rfl⟩
  · show (BitVec.ofNat 32 (s.eng.i.toNat + items)).toNat ≤ s.rowItems
    rwa [hin']
  · show (BitVec.ofNat 32 (s.eng.cnt.toNat + pixels)).toNat =
      s.pixelsOf (BitVec.ofNat 32 (s.eng.i.toNat + items)).toNat
    rw [hin', hcn', hpix]

theorem State.emitUnit_phaseOk {s t : State} {u : List Byte} {pixels items : Nat}
    (h : s.emitUnit u pixels items = .next t) (hs : s.phaseOk = true) (hf : s.fitsRow pixels items) :
    t.phaseOk = true := by
  have hr := State.encoding_of_emitUnit h
  rw [State.phaseOk_enc hr] at hs
  obtain rfl | ⟨e, he, rfl⟩ := State.emitUnit_cases h
  · exact State.phaseOk_of_not_busy rfl
  · obtain ⟨hr', hs'⟩ := State.emit_encOk hr hs he
    refine State.phaseOk_cover hr' hs' ?_
    obtain ⟨-, hctrl, hcfg, heng, -⟩ := State.emit_ok he
    rwa [State.fitsRow, State.rowItems_congr hctrl hcfg, State.pixelsOf_congr hctrl hcfg, heng]

/-! ### The encoders' choice -/

theorem toNat_ofNat_byte {n : Nat} (h : n ≤ 255) : (BitVec.ofNat 8 n).toNat = n := toNat_ofNat_of_lt (by omega)

theorem literalAt_le (item : Nat → Nat → Byte) (cap minRun width i : Nat) :
    literalAt item cap minRun width i ≤ min cap (width - i) := literalCount_le _ _ _ _ _ _

@[simp] theorem itemsFrom_length (item : Nat → Byte) (i n : Nat) : (itemsFrom item i n).length = n := by
  simp [itemsFrom]

theorem exec_encRun (c v : Byte) (s : State) :
    exec (.encRun c v) s = s.emitUnit [c, v] c.toNat (s.runItems c.toNat) := execEncRun_eq c v s

theorem exec_encAbs (n : Byte) (data : List Byte) (s : State) :
    exec (.encAbs n data) s = s.emitUnit (absBytes n data) n.toNat data.length := execEncAbs_eq n data s

/-- A short literal is one unit for the pixels of its first run and, if it has one, of its second. -/
theorem exec_encShort (c v : Byte) (w : Option Byte) (s : State) :
    exec (.encShort c v w) s = s.emitUnit ([c, v] ++ shortSecond w) (c.toNat + (shortSecond w).length / 2)
      (s.runItems (c.toNat + (shortSecond w).length / 2)) := execEncShort_eq c v w s

/-- In a row of pixels, a unit inside the row fits it. -/
theorem State.fitsRow_rle8 {s : State} {n : Nat} (h4 : s.encodes4 = false)
    (hcnt : s.eng.cnt.toNat = s.pixelsOf s.eng.i.toNat) (hn : s.eng.i.toNat + n ≤ s.cfg.width.toNat) :
    s.fitsRow n n := by
  simp only [State.fitsRow, State.rowItems, State.pixelsOf, h4] at hcnt ⊢
  exact ⟨hn, congrArg (· + n) hcnt⟩

/-- The unit that ENC_RLE8 chooses in a row with pixels left fits the row (spec/43_rle_encode.md R283). -/
theorem State.choose8_fitsRow {s : State} (h4 : s.encodes4 = false) (hi : s.eng.i.toNat < s.cfg.width.toNat)
    (hcnt : s.eng.cnt.toNat = s.pixelsOf s.eng.i.toNat) :
    ∃ u pixels items, exec s.choose8 s = s.emitUnit u pixels items ∧ s.fitsRow pixels items := by
  have hitems (c : Nat) : s.runItems c = c := by simp [State.runItems, h4]
  have hk := runAt_le s.px 255 s.cfg.width.toNat s.eng.i.toNat
  have hn := literalAt_le s.px 255 Config.rle8MinRun s.cfg.width.toNat s.eng.i.toNat
  unfold State.choose8
  dsimp only
  generalize runAt s.px 255 s.cfg.width.toNat s.eng.i.toNat = k at hk ⊢
  generalize literalAt s.px 255 Config.rle8MinRun s.cfg.width.toNat s.eng.i.toNat = n at hn ⊢
  split
  · refine ⟨_, _, _, exec_encRun _ _ s, ?_⟩
    rw [hitems, toNat_ofNat_byte (by omega)]
    exact State.fitsRow_rle8 h4 hcnt (by omega)
  · split
    · refine ⟨_, _, _, exec_encAbs _ _ s, ?_⟩
      rw [itemsFrom_length, toNat_ofNat_byte (by omega)]
      exact State.fitsRow_rle8 h4 hcnt (by omega)
    · split
      · refine ⟨_, _, _, exec_encShort _ _ _ s, ?_⟩
        have htwo (w : Byte) : (1 : Byte).toNat + (shortSecond (some w)).length / 2 = 2 := by simp [shortSecond]
        rw [hitems, htwo]
        exact State.fitsRow_rle8 h4 hcnt (by omega)
      · refine ⟨_, _, _, exec_encShort _ _ _ s, ?_⟩
        rw [hitems, toNat_ofNat_byte (by omega)]
        exact State.fitsRow_rle8 h4 hcnt (by simp [shortSecond]; omega)

/-- In a row of bytes, a stretch of k bytes inside the row fits it with the pixels that the bytes hold (R284). -/
theorem State.fitsRow_rle4 {s : State} {k : Nat} (h4 : s.encodes4 = true)
    (hcnt : s.eng.cnt.toNat = s.pixelsOf s.eng.i.toNat) (hi : s.eng.i.toNat < rowBytes4 s.cfg.width.toNat)
    (hk : s.eng.i.toNat + k ≤ rowBytes4 s.cfg.width.toNat) :
    s.fitsRow (nib s.cfg.width.toNat s.eng.i.toNat k) k := by
  simp only [State.fitsRow, State.rowItems, State.pixelsOf, h4, if_true] at hcnt ⊢
  refine ⟨hk, ?_⟩
  unfold rowBytes4 at hi hk
  unfold nib rowBytes4
  split <;> omega

/-- The items of a unit of k bytes are found again from its pixels, which are two for each byte or one less. -/
theorem nib_spec {width j k : Nat} (h : j < rowBytes4 width) :
    (nib width j k + 1) / 2 = k ∧ nib width j k ≤ 2 * k := by
  unfold nib
  split <;> omega

/-- The unit that ENC_RLE4 chooses in a row with bytes left fits the row (spec/43_rle_encode.md R284, R285). -/
theorem State.choose4_fitsRow {s : State} (h4 : s.encodes4 = true) (hi : s.eng.i.toNat < rowBytes4 s.cfg.width.toNat)
    (hcnt : s.eng.cnt.toNat = s.pixelsOf s.eng.i.toNat) :
    ∃ u pixels items, exec s.choose4 s = s.emitUnit u pixels items ∧ s.fitsRow pixels items := by
  have hitems (c : Nat) : s.runItems c = (c + 1) / 2 := by simp [State.runItems, h4]
  have hk := runAt_le s.by4 127 (rowBytes4 s.cfg.width.toNat) s.eng.i.toNat
  have hm := literalAt_le s.by4 127 Config.rle4MinRun (rowBytes4 s.cfg.width.toNat) s.eng.i.toNat
  unfold State.choose4
  dsimp only
  generalize runAt s.by4 127 (rowBytes4 s.cfg.width.toNat) s.eng.i.toNat = k at hk ⊢
  generalize literalAt s.by4 127 Config.rle4MinRun (rowBytes4 s.cfg.width.toNat) s.eng.i.toNat = m at hm ⊢
  have hfits {n : Nat} (hn : n ≤ min 127 (rowBytes4 s.cfg.width.toNat - s.eng.i.toNat)) :
      s.fitsRow (nib s.cfg.width.toNat s.eng.i.toNat n) n := State.fitsRow_rle4 h4 hcnt hi (by omega)
  split
  · obtain ⟨hki, hkl⟩ := nib_spec (k := k) hi
    refine ⟨_, _, _, exec_encRun _ _ s, ?_⟩
    rw [hitems, toNat_ofNat_byte (by omega), hki]
    exact hfits hk
  · obtain ⟨hmi, hml⟩ := nib_spec (k := m) hi
    split
    · refine ⟨_, _, _, exec_encAbs _ _ s, ?_⟩
      rw [itemsFrom_length, toNat_ofNat_byte (by omega)]
      exact hfits hm
    · refine ⟨_, _, _, exec_encShort _ _ _ s, ?_⟩
      rw [hitems, toNat_ofNat_byte (by omega), shortSecond, List.length_nil, Nat.zero_div, Nat.add_zero, hmi]
      exact hfits hm

/-! ### The end of an encoder's row -/

/-- The depth at which the running encoder reads its input. -/
theorem State.encoding_depth {s : State} (h : s.encoding) :
    ∃ op, (op = .encRle8 ∨ op = .encRle4) ∧ s.running op s.encDepth = true := by
  obtain h | h := h
  · exact ⟨_, .inl rfl, by rwa [State.encDepth, State.encodes4_of_rle8 h]⟩
  · exact ⟨_, .inr rfl, by rwa [State.encDepth, State.encodes4_of_rle4 h]⟩

/-- The rows of an encoder's input lie inside it, so that their offsets are 32-bit numbers. -/
theorem State.encoding_input {s : State} (h : s.encoding) :
    s.cfg.height.toNat * s.encStride ≤ s.cfg.inLen.toNat := by
  obtain ⟨op, ho, hr⟩ := State.encoding_depth h
  rw [Nat.mul_comm]
  exact (configError_none (State.running_config hr)).2.2.2.2.2.2 (.inr ho)

theorem execEncEol_phaseOk {s t : State} (h : execEncEol s = .next t) (hs : s.phaseOk = true)
    (hrow : s.eng.r.toNat + 1 < s.cfg.height.toNat) : t.phaseOk = true := by
  obtain ⟨hr, ⟨-, rfl⟩ | ⟨-, -, rfl⟩ | ⟨-, e, he, rfl⟩⟩ := endRow_cases h
  · exact State.phaseOk_of_not_busy rfl
  · exact State.phaseOk_of_not_busy rfl
  · rw [State.phaseOk_enc hr] at hs
    obtain ⟨hre, hse⟩ := State.emit_encOk hr hs he
    obtain ⟨ho, hol, -⟩ := e.encOk_iff.mp hse
    obtain ⟨-, -, hcfg, heng, -⟩ := State.emit_ok he
    rw [← hcfg, show s.eng.r = e.eng.r by rw [heng]] at hrow
    have hh := e.cfg.height.isLt
    have hin := e.cfg.inLen.isLt
    have hrn : (BitVec.ofNat 32 (e.eng.r.toNat + 1)).toNat = e.eng.r.toNat + 1 := toNat_ofNat_of_lt (by omega)
    have hpos : (e.eng.r.toNat + 1) * e.encStride ≤ e.cfg.inLen.toNat :=
      (Nat.mul_le_mul_right _ hrow.le).trans (State.encoding_input hre)
    refine State.phaseOk_of_encOk (State.encoding_of_eq hre rfl rfl rfl (hrn.trans_lt hrow)) ?_
    refine (State.encOk_iff _).mpr ⟨ho, hol, ?_, rfl, Nat.zero_le _, ?_, rfl⟩
    · show (BitVec.ofNat 32 ((e.eng.r.toNat + 1) * e.encStride)).toNat =
        (BitVec.ofNat 32 (e.eng.r.toNat + 1)).toNat * e.encStride
      rw [hrn, toNat_ofNat_of_lt (by omega)]
    · show 0 = e.pixelsOf 0
      simp [State.pixelsOf]

theorem execEncEob_phaseOk {s t : State} (h : execEncEob s = .next t) : t.phaseOk = true := by
  obtain ⟨-, ⟨-, rfl⟩ | ⟨-, -, rfl⟩ | ⟨-, e, -, rfl⟩⟩ := endRow_cases h <;> exact State.phaseOk_of_not_busy rfl

/-- The unit that an encoder emits next keeps what its phase asks. -/
theorem exec_nextUnit_phaseOk {s t : State} (hr : s.encoding) (hs : s.phaseOk = true)
    (h : exec s.nextUnit s = .next t) : t.phaseOk = true := by
  have hcnt : s.eng.cnt.toNat = s.pixelsOf s.eng.i.toNat := by
    rw [State.phaseOk_enc hr] at hs
    exact (s.encOk_iff.mp hs).2.2.2.2.2.1
  have hunit : ∀ i, exec i s = .next t →
      (∃ u pixels items, exec i s = s.emitUnit u pixels items ∧ s.fitsRow pixels items) → t.phaseOk = true := by
    rintro i h ⟨u, pixels, items, he, hf⟩
    exact State.emitUnit_phaseOk (he.symm.trans h) hs hf
  unfold State.nextUnit at h
  by_cases hi : s.eng.i.toNat < s.rowItems
  · rw [if_pos hi] at h
    unfold State.rowItems at hi
    cases h4 : s.encodes4 with
    | true =>
      rw [h4, if_pos rfl] at h hi
      exact hunit _ h (State.choose4_fitsRow h4 hi hcnt)
    | false =>
      rw [h4, if_neg Bool.false_ne_true] at h hi
      exact hunit _ h (State.choose8_fitsRow h4 hi hcnt)
  · rw [if_neg hi] at h
    split at h
    · exact execEncEol_phaseOk h hs ‹_›
    · exact execEncEob_phaseOk h

/-! ### The body's next step -/

/-- An instruction of an RLE decode or of the unpacker keeps what its phase asks, whatever its operands. -/
theorem ExecForm.phaseOk {s t : State} {o : Host.Outcome State Fault Refusal} (hf : ExecForm s o) (h : o = .next t)
    (hp : s.eng.phase = .body) (hs : s.phaseOk = true) (hg3 : s.running .decHuff .d1 = false) (henc : ¬ s.encoding) :
    t.phaseOk = true := by
  have hcmd : ∀ w first, runCommand w first s = .next t → t.phaseOk = true := fun w first h => by
    rw [runCommand_running (by simp [hp]) (by simp [hp])] at h
    cases h
    exact hs
  cases hf with
  | legalCommand w op d f => exact hcmd _ _ h
  | reservedCommand w => exact hcmd _ _ h
  | pixels8 len n vs hn => exact rlePixels_phaseOk h hs (writesOut_putPixels_put8 hn)
  | pixels4 len n vs hn => exact rlePixels_phaseOk h hs (writesOut_putPixels_put4 hn)
  | pixels24 len n vs hn => exact rlePixels_phaseOk h hs (writesOut_putPixels_put24 hn)
  | rleEol v => exact rleEol_phaseOk h hs
  | rleEob v => exact rleEob_phaseOk h
  | rleDelta v dx dy => exact rleDelta_phaseOk h hs
  | emitUnit u pixels items => exact absurd (State.encoding_of_emitUnit h) henc
  | encEol => exact absurd (endRow_cases h).1 henc
  | encEob => exact absurd (endRow_cases h).1 henc
  | runCode len effect he => simp [(runCode_cases h).1] at hg3
  | eolCode fill => simp [(execEol_cases h).1] at hg3
  | pixel d color => exact pixelStep_phaseOk h hs

/-- The instruction that the body fetches keeps what its phase asks. -/
theorem exec_fetch_phaseOk {s t : State} {i : Instr} (hp : s.eng.phase = .body) (hs : s.phaseOk = true)
    (hf : s.fetch = .run i) (h : exec i s = .next t) : t.phaseOk = true := by
  by_cases hg3 : s.running .decHuff .d1 = true
  · exact exec_fetchCode_phaseOk hg3 hs hf h
  · by_cases henc : s.encoding
    · rw [State.fetch_enc henc] at hf
      cases hf
      exact exec_nextUnit_phaseOk henc hs h
    · exact (exec_form i s).phaseOk h hp hs (by simpa using hg3) henc

/-! ### The first step and the zero-fill -/

/-- The first step's assignments put the cursor where the body may start, and the registers that mirror it at 0. -/
theorem State.phaseOk_initialise_body {s : State} {op : Operation} {d : Depth} (ho : s.ctrl.op = op.code)
    (hd : s.ctrl.bpp = d.code) (hc : configError op d s.ctrl.flags s.cfg = none) (hpos : s.pos = .zero) :
    ((s.initialise op).withPhase .body).phaseOk = true := by
  obtain ⟨-, hw, hh, -⟩ := configError_none hc
  simp only [legalDim, Bool.and_eq_true, decide_eq_true_eq] at hw hh
  have hh32 := s.cfg.height.isLt
  have hcur : ((s.initialise op).withPhase .body).cursorOk op = true := by
    cases op <;> simp [State.cursorOk, State.initialise]
    all_goals omega
  have hr : ((s.initialise op).withPhase .body).running op d = true := by
    simp [State.running, ho, hd, hc, hcur]
  rw [State.phaseOk_of_running hr]
  cases op with
  | decRle8 | decRle4 | decRle24 => simp [State.operationOk, State.rleOk, State.initialise, hpos, Progress.zero]
  | decHuff => simp [State.operationOk, State.g3Ok, State.initialise, hpos, Progress.zero, Config.g3EndRun]
  | encRle8 | encRle4 => simp [State.operationOk, State.encOk, State.initialise, hpos, Progress.zero, State.pixelsOf]
  | unpack => simp [State.operationOk, State.unpackOk, State.initialise, hpos, Progress.zero]

theorem State.initialise_pos_of_decoder (s : State) {op : Operation} (h : Operation.isDecoder op = true) :
    (s.initialise op).pos = s.pos := by
  cases op with
  | decRle8 | decRle4 | decRle24 | decHuff => rfl
  | encRle8 | encRle4 | unpack => cases h

/-- What the invariant asks of the zero-fill, for a decoder that has byte k left to fill. -/
theorem State.phaseOk_fill {s : State} {op : Operation} {d : Depth} {k : Word} (ho : s.ctrl.op = op.code)
    (hd : s.ctrl.bpp = d.code) (hdec : Operation.isDecoder op = true)
    (hc : configError op d s.ctrl.flags s.cfg = none) (hpos : s.pos = .zero) (hp : s.eng.phase = .fill k)
    (hk : k.toNat < fillLength d s.cfg) (heng : (s.initialise op).eng = s.eng) : s.phaseOk = true := by
  simp [State.phaseOk, hp, State.fillOk, ho, hd, hdec, hc, hpos, hk, heng]

theorem State.phaseOk_enterOperation {s : State} {op : Operation} {d : Depth} (ho : s.ctrl.op = op.code)
    (hd : s.ctrl.bpp = d.code) (hc : configError op d s.ctrl.flags s.cfg = none) (hpos : s.pos = .zero) :
    (s.enterOperation op d).phaseOk = true := by
  obtain ⟨hdec, hk, he⟩ | ⟨-, he⟩ := s.enterOperation_cases op d <;> rw [he]
  · refine State.phaseOk_fill (d := d) (k := 0) (by simpa using ho) (by simpa using hd) hdec (by simpa using hc) ?_ rfl
      (by simpa using hk) (congrArg State.eng (s.initialise_initialise op _))
    exact (s.initialise_pos_of_decoder hdec).trans hpos
  · exact State.phaseOk_initialise_body ho hd hc hpos

/-- The engine's first step: an error, or the operation entered. -/
theorem exec_latched_phaseOk {s t : State} (hp : s.eng.phase = .start) (hs : s.phaseOk = true)
    (h : exec (commandOf s.ctrl.op s.ctrl.bpp s.ctrl.flags) s = .next t) : t.phaseOk = true := by
  have hpos : s.pos = .zero := by simpa [State.phaseOk, hp] using hs
  rw [exec_commandOf_start hp] at h
  split at h
  · rename_i op d ho hd
    cases h
    cases hc : configError op d s.ctrl.flags s.cfg with
    | some c =>
      rw [State.firstStep_fails hc]
      exact State.phaseOk_of_not_busy rfl
    | none =>
      rw [State.firstStep_enters hc]
      exact State.phaseOk_enterOperation (Operation.code_of_ofCode ho) (Depth.code_of_ofCode hd) hc hpos
  · cases h
    exact State.phaseOk_of_not_busy rfl

/-- A decoder's hidden state that the first step has left is left alone by the first step's assignments. -/
theorem State.initialise_of_eng_eq {s : State} {op : Operation} (hdec : Operation.isDecoder op = true)
    (h : (s.initialise op).eng = s.eng) : s.initialise op = s := by
  have hs : s.initialise op = { s with eng := (s.initialise op).eng } := by
    cases op with
    | decRle8 | decRle4 | decRle24 | decHuff => rfl
    | encRle8 | encRle4 | unpack => cases hdec
  rw [hs, h]

theorem zeroFillStep_phaseOk {k : Word} {s t : State} (hp : s.eng.phase = .fill k) (hs : s.phaseOk = true)
    (h : zeroFillStep k s = .next t) : t.phaseOk = true := by
  obtain ⟨op, d, ho, hd, hdec, hc, hk, rfl⟩ := zeroFillStep_cases h
  have hq := (State.writesOut_outWrite (hk.trans_le (fillLength_le d s.cfg)) 0).quiet (configError_none hc).2.2.2.2.1
  have hfill : s.pos = .zero ∧ (s.initialise op).eng = s.eng := by
    simpa [State.phaseOk, hp, State.fillOk, ho, hd, hdec, hc, hk] using hs
  obtain ⟨hpos, heng⟩ := hfill
  generalize s.outWrite k.toNat 0 = u at hq ⊢
  have hlen := (fillLength_le d s.cfg).trans_lt s.cfg.outLen.isLt
  have hinit : u.initialise op = u := State.initialise_of_eng_eq hdec
    ((State.initialise_eng_congr hq.cfg hq.eng op).trans (heng.trans hq.eng.symm))
  have hou : u.ctrl.op = op.code := hq.ctrl ▸ Operation.code_of_ofCode ho
  have hdu : u.ctrl.bpp = d.code := hq.ctrl ▸ Depth.code_of_ofCode hd
  have hcu : configError op d u.ctrl.flags u.cfg = none := by rwa [hq.ctrl, hq.cfg]
  have hpu : u.pos = .zero := hq.pos.trans hpos
  split
  · rename_i hk1
    have hkn : (k + 1).toNat = k.toNat + 1 := by
      simp only [BitVec.toNat_add, BitVec.ofNat_eq_ofNat, BitVec.toNat_ofNat]
      omega
    refine State.phaseOk_fill hou hdu hdec hcu hpu rfl ?_ ?_
    · rwa [State.withPhase_cfg, hq.cfg, hkn]
    · rw [← hinit, State.initialise_initialise]
  · rw [← hinit]
    exact State.phaseOk_initialise_body hou hdu hcu hpu

/-! ### Every step -/

theorem interpretStep_phaseOk {s t : State} (hp : s.eng.phase = .start ∨ s.eng.phase = .body) (hs : s.phaseOk = true)
    (h : interpretStep s = .next t) : t.phaseOk = true := by
  obtain ⟨i, hf, h⟩ | ⟨-, rfl⟩ | ⟨c, -, rfl⟩ := interpretStep_cases h
  · obtain hp | hp := hp
    · rw [State.fetch_start hp] at hf
      cases hf
      exact exec_latched_phaseOk hp hs h
    · exact exec_fetch_phaseOk hp hs hf h
  · exact State.phaseOk_of_not_busy rfl
  · exact State.phaseOk_of_not_busy rfl

theorem engineStep_phaseOk {s t : State} (hs : s.phaseOk = true) (h : engineStep s = .next t) : t.phaseOk = true := by
  have hd : s.drawn.phaseOk = true := (State.Quiet.drawn s).phaseOk.trans hs
  obtain he | ⟨-, k, hp, he⟩ | ⟨-, hp, he⟩ := engineStep_cases s
  · cases he.symm.trans h
    exact hs
  · exact zeroFillStep_phaseOk (s := s.drawn) hp hd (he.symm.trans h)
  · exact interpretStep_phaseOk (s := s.drawn) hp hd (he.symm.trans h)

/-- A turn of the engine keeps the invariant. -/
theorem engineStep_inv {s t : State} (hi : s.inv = true) (h : engineStep s = .next t) : t.inv = true := by
  obtain rfl | ⟨-, hk | he⟩ := engineStep_moves h
  · exact hi
  · exact hk.inv hi (engineStep_phaseOk (s.inv_iff.mp hi).2.2 h)
  · exact State.inv_of_not_busy he.busy (he.memOk (s.inv_iff.mp hi).1)

/-- A register write keeps the invariant. -/
theorem State.inv_writeReg {s : State} (hi : s.inv = true) (offset : Nat) (v : Word) :
    (s.writeReg offset v).inv = true := by
  obtain ⟨hm, hs, hp⟩ := s.inv_iff.mp hi
  obtain he | ⟨-, -, -, he⟩ | ⟨-, hb, -, he⟩ | ⟨-, -, he⟩ | ⟨hb, he⟩ := s.writeReg_cases offset v <;> rw [he]
  · exact hi
  · exact (State.inv_iff _).mpr ⟨hm, rfl, rfl⟩
  · exact State.inv_of_not_busy hb hm
  · cases hb : s.busy with
    | true =>
      have hd : s.status.done = false := by
        rw [State.status_of_busy hi hb]
        rfl
      rw [State.acknowledge, ← hd]
      exact hi
    | false => exact State.inv_of_not_busy hb hm
  · exact State.inv_of_not_busy hb hm

/-- A host's access keeps the invariant. -/
theorem hostStep_inv {inp : Input} {s t : State} (hi : s.inv = true) (h : hostStep inp s = .next t) : t.inv = true := by
  obtain hq | ⟨offset, v, -, rfl⟩ | ⟨-, hr, rfl⟩ := hostStep_moves h
  · exact hq.inv hi
  · exact State.inv_writeReg hi offset.toNat v
  · obtain ⟨-, -, -, -, hp, hm, -⟩ := State.deassertReset_of_inReset hr
    refine State.inv_of_not_busy (by simp [State.busy, hp]) ?_
    rw [State.memOk, hm]
    exact (s.inv_iff.mp hi).1

/-- Settles O56: a step is a turn of the engine or a host's access, and each keeps the invariant. -/
theorem invariantKept : Obligations.InvariantKept := by
  intro s t hi h
  obtain ⟨u, hq, h | ⟨inp, rest, -, h⟩⟩ := step_moves h
  · exact engineStep_inv (hq.inv hi) h
  · exact hostStep_inv (hq.inv hi) h

end Sys2Proof.Machine
end

section
/-!
PROOF. What a step answers. Every step keeps memory's canonical form (spec/20_memory.md R80). At the engine's turn a step
interprets what the decoder reads (R90, R95), and an instruction that is read where its operation runs takes effect; so no
step from a state that meets the invariant is stuck (spec/93 "No item of this spec is stuck"), and only a register access
of a wrong shape is refused (R85).
-/

namespace Sys2Proof.Machine

/-! ### Memory's canonical form -/

/-- A turn of the engine keeps memory's canonical form. -/
theorem engineStep_memOk {s t : State} (hm : s.memOk = true) (h : engineStep s = .next t) : t.memOk = true := by
  obtain rfl | ⟨-, hk | he⟩ := engineStep_moves h
  · exact hm
  · exact hk.memOk hm
  · exact he.memOk hm

/-- A host's access keeps memory's canonical form. -/
theorem hostStep_memOk {inp : Input} {s t : State} (hm : s.memOk = true) (h : hostStep inp s = .next t) :
    t.memOk = true := by
  obtain hq | ⟨offset, v, -, rfl⟩ | ⟨-, -, rfl⟩ := hostStep_moves h
  · exact hq.memOk hm
  · rwa [State.memOk, (s.writeReg_frame offset.toNat v).1]
  · rwa [State.memOk, State.deassertReset_mem]

/-- Settles O57: a step is a turn of the engine or a host's access, and each keeps the form. -/
theorem memoryFormKept : Obligations.MemoryFormKept := by
  intro s t hm h
  obtain ⟨u, hq, h | ⟨inp, rest, -, h⟩⟩ := step_moves h
  · exact engineStep_memOk (hq.memOk hm) h
  · exact hostStep_memOk (hq.memOk hm) h

/-! ### What is read takes effect only within its operation -/

/-- A unit that the decoder of a variant reads is a unit of that variant's operation. -/
theorem exec_of_decodeUnit {v : Rle} {bs rest : List Byte} {i : Instr} (h : decodeUnit v bs = .ok (i, rest))
    (s : State) : ∃ e, exec i s = s.within (Rle.operation v) (Rle.depth v) e := by
  unfold decodeUnit at h
  split at h
  · split at h
    · unfold decodeRun at h
      split at h <;> cases h <;> exact ⟨_, rfl⟩
    · split at h
      · cases h
        cases v <;> exact ⟨_, rfl⟩
      · split at h
        · cases h
          cases v <;> exact ⟨_, rfl⟩
        · split at h
          · split at h <;> cases h
            cases v <;> exact ⟨_, rfl⟩
          · unfold decodeAbs at h
            dsimp only at h
            split at h
            · cases h
            · split at h <;> cases h <;> exact ⟨_, rfl⟩
  · cases h

/-- A pixel that the decoder of a depth reads is a pixel of the unpacker at that depth. -/
theorem exec_of_decodePixel {d : Depth} {bs rest : List Byte} {i : Instr} (h : decodePixel d bs = .ok (i, rest))
    (s : State) : ∃ e, exec i s = s.within .unpack d e := by
  unfold decodePixel at h
  split at h <;> cases h <;> exact ⟨_, rfl⟩

/-- A code that is read is a code of the Huffman decode. -/
theorem exec_of_decodeCode {s : State} {c : Color} {bits rest : List Bool} {i : Instr}
    (h : decodeCode s.g3 c bits = .ok (i, rest)) : ∃ e, exec i s = s.within .decHuff .d1 e := by
  obtain ⟨r, hr, rfl, -⟩ | ⟨fill, rfl, -⟩ := readCode_ok h
  · rcases List.mem_append.mp hr with hr | hr
    · exact ⟨_, exec_terminating hr⟩
    · exact ⟨_, exec_makeUp hr⟩
  · exact ⟨_, rfl⟩

/-- What an encoder chooses is a unit of the encoders. -/
theorem exec_nextUnit (s : State) : ∃ e, exec s.nextUnit s = s.withinEncoder e := by
  have h8 : ∃ e, exec s.choose8 s = s.withinEncoder e := by
    unfold State.choose8
    dsimp only
    split
    · exact ⟨_, rfl⟩
    · split
      · exact ⟨_, rfl⟩
      · split <;> exact ⟨_, rfl⟩
  have h4 : ∃ e, exec s.choose4 s = s.withinEncoder e := by
    unfold State.choose4
    dsimp only
    split
    · exact ⟨_, rfl⟩
    · split <;> exact ⟨_, rfl⟩
  unfold State.nextUnit
  split
  · split
    · exact h4
    · exact h8
  · split <;> exact ⟨_, rfl⟩

/-! ### No turn of the engine is stuck -/

theorem State.within_answers {s : State} {op : Operation} {d : Depth} (hr : s.running op d = true)
    {o : Host.Outcome State Fault Refusal} (h : ∃ e, o = s.within op d e) : ∃ t, o = .next t := by
  obtain ⟨e, rfl⟩ := h
  exact ⟨e, State.within_of_running hr e⟩

/-- A step that interprets answers unless nothing is fetched or the fetched instruction's meaning does not answer. -/
theorem interpretStep_answers {s : State}
    (h : s.fetch = .endOfInput ∨ (∃ c, s.fetch = .failed c) ∨ ∃ i, s.fetch = .run i ∧ ∃ t, exec i s = .next t) :
    ∃ t, interpretStep s = .next t := by
  unfold interpretStep
  obtain hf | ⟨c, hf⟩ | ⟨i, hf, ht⟩ := h <;> rw [hf]
  · exact ⟨_, rfl⟩
  · exact ⟨_, rfl⟩
  · exact ht

theorem interpretStep_answers_start {s : State} (hp : s.eng.phase = .start) : ∃ t, interpretStep s = .next t := by
  rw [interpretStep_run (State.fetch_start hp), exec_commandOf_start hp]
  split <;> exact ⟨_, rfl⟩

theorem interpretStep_answers_rle {s : State} {v : Rle} (hr : s.running (Rle.operation v) (Rle.depth v) = true) :
    ∃ t, interpretStep s = .next t := by
  refine interpretStep_answers ?_
  rw [State.fetch_rle hr]
  unfold State.fetchUnit
  dsimp only
  split
  · exact .inl rfl
  · split
    · exact .inr (.inr ⟨_, rfl, State.within_answers hr (exec_of_decodeUnit ‹_› s)⟩)
    · exact .inr (.inl ⟨_, rfl⟩)

theorem interpretStep_answers_huff {s : State} (hr : s.running .decHuff .d1 = true) :
    ∃ t, interpretStep s = .next t := by
  refine interpretStep_answers (.inr ?_)
  rw [State.fetch_huff hr]
  unfold State.fetchCode
  dsimp only
  split
  · exact .inr ⟨_, rfl, State.within_answers hr (exec_of_decodeCode ‹_›)⟩
  · exact .inl ⟨_, rfl⟩

theorem interpretStep_answers_unpack {s : State} {d : Depth} (hr : s.running .unpack d = true) :
    ∃ t, interpretStep s = .next t := by
  refine interpretStep_answers (.inr ?_)
  rw [State.fetch_unpack hr]
  unfold State.fetchPixel
  dsimp only
  split
  · exact .inr ⟨_, rfl, State.within_answers hr (exec_of_decodePixel ‹_› s)⟩
  · exact .inl ⟨_, rfl⟩

theorem interpretStep_answers_enc {s : State} (hr : s.encoding) : ∃ t, interpretStep s = .next t := by
  obtain ⟨e, he⟩ := exec_nextUnit s
  rw [interpretStep_run (State.fetch_enc hr), he]
  exact ⟨e, State.withinEncoder_of_running hr e⟩

/-- In the body of any operation, at the depth at which it runs, a step answers. -/
theorem interpretStep_answers_body {s : State} {op : Operation} {d : Depth} (hr : s.running op d = true) :
    ∃ t, interpretStep s = .next t := by
  have hd {b : Depth} (hb : op.depth? = some b) : s.running op b = true := State.running_depth hr hb ▸ hr
  cases op with
  | decRle8 => exact interpretStep_answers_rle (v := .rle8) (hd rfl)
  | decRle4 => exact interpretStep_answers_rle (v := .rle4) (hd rfl)
  | decRle24 => exact interpretStep_answers_rle (v := .rle24) (hd rfl)
  | decHuff => exact interpretStep_answers_huff (hd rfl)
  | encRle8 => exact interpretStep_answers_enc (.inl (hd rfl))
  | encRle4 => exact interpretStep_answers_enc (.inr (hd rfl))
  | unpack => exact interpretStep_answers_unpack hr

/-- The invariant's body is the body of an operation that runs. -/
theorem State.running_of_bodyOk {s : State} (h : s.bodyOk = true) : ∃ op d, s.running op d = true := by
  unfold State.bodyOk at h
  split at h
  · exact ⟨_, _, (Bool.and_eq_true_iff.mp h).1⟩
  · cases h

/-- The invariant's zero-fill has a byte to fill. -/
theorem zeroFillStep_answers {s : State} {k : Word} (h : s.fillOk k = true) : ∃ t, zeroFillStep k s = .next t := by
  unfold State.fillOk at h
  split at h
  · rename_i op d ho hd
    simp only [Bool.and_eq_true, beq_iff_eq, decide_eq_true_eq] at h
    obtain ⟨⟨⟨hdec, hc⟩, hk⟩, -⟩ := h
    exact ⟨_, zeroFillStep_eq ho hd hdec hc hk⟩
  · cases h

theorem engineStep_answers {s : State} (hs : s.phaseOk = true) : ∃ t, engineStep s = .next t := by
  have hd : s.drawn.phaseOk = true := (State.Quiet.drawn s).phaseOk.trans hs
  obtain he | ⟨-, k, hp, he⟩ | ⟨-, hp | hp, he⟩ := engineStep_cases s
  · exact ⟨s, he⟩
  · rw [he]
    refine zeroFillStep_answers ?_
    simp only [State.phaseOk, State.drawn_eng, hp, Bool.and_eq_true] at hd
    exact hd.2
  · rw [he]
    exact interpretStep_answers_start hp
  · rw [he]
    have hb : s.drawn.bodyOk = true := by simpa only [State.phaseOk, State.drawn_eng, hp] using hd
    obtain ⟨op, d, hr⟩ := State.running_of_bodyOk hb
    exact interpretStep_answers_body hr

/-! ### The host's accesses -/

theorem regAccessOk_iff {offset : Byte} {size : Nat} :
    regAccessOk offset size = true ↔ size = 4 ∧ offset.toNat % 4 = 0 := by
  simp [regAccessOk]

/-- The input is a register access of this offset and size. -/
inductive Input.IsRegAccess (offset : Byte) (size : Nat) : Input → Prop
  | read : IsRegAccess offset size (.readReg offset size)
  | write (v : Word) : IsRegAccess offset size (.writeReg offset size v)

/-- A register access answers exactly when its shape is that of the window (spec/20_memory.md R85). -/
theorem Input.IsRegAccess.hostStep_shape {offset : Byte} {size : Nat} {inp : Input} (h : inp.IsRegAccess offset size)
    (s : State) :
    (size = 4 ∧ offset.toNat % 4 = 0 → ∃ t, hostStep inp s = .next t) ∧
      (¬ (size = 4 ∧ offset.toNat % 4 = 0) → hostStep inp s = .refused .registerAccessShape) := by
  rw [← regAccessOk_iff]
  cases h with
  | read => exact ⟨fun hok => ⟨_, if_pos hok⟩, fun hok => if_neg hok⟩
  | write v => exact ⟨fun hok => ⟨_, if_pos hok⟩, fun hok => if_neg hok⟩

/-- Every other input answers. -/
theorem hostStep_answers (inp : Input) (s : State) :
    (∃ t, hostStep inp s = .next t) ∨ ∃ offset size, inp.IsRegAccess offset size := by
  cases inp with
  | readReg offset size => exact .inr ⟨_, _, .read⟩
  | writeReg offset size v => exact .inr ⟨_, _, .write v⟩
  | readMem a | writeMem a v | readIrq | engine => exact .inl ⟨_, rfl⟩
  | reset asserted => cases asserted <;> exact .inl ⟨_, rfl⟩

theorem Input.IsRegAccess.ne_engine {offset : Byte} {size : Nat} {inp : Input} (h : inp.IsRegAccess offset size) :
    inp ≠ .engine := by
  cases h <;> simp

/-- Settles O49: a register access is a host's step, which asks for the shape and nothing else. -/
theorem registerAccessShape : Obligations.RegisterAccessShape := by
  intro s offset size v rest hi
  obtain ⟨inp, hacc, hi⟩ : ∃ inp, inp.IsRegAccess offset size ∧ s.plat.inputs = inp :: rest :=
    hi.elim (fun hi => ⟨_, .read, hi⟩) fun hi => ⟨_, .write v, hi⟩
  rw [step_host hi hacc.ne_engine]
  exact (hacc.hostStep_shape _).symm

/-- Settles O58: the engine's turn answers in every phase that the invariant allows, and so does every host's access but
a register access of a wrong shape. -/
theorem neverStuck : Obligations.NeverStuck := by
  intro s hinv
  have hs := (s.inv_iff.mp hinv).2.2
  obtain ⟨-, he⟩ | ⟨rest, -, he⟩ | ⟨inp, rest, hi, -, he⟩ := step_cases s <;> rw [he]
  · exact .inl (engineStep_answers hs)
  · exact .inl (engineStep_answers ((State.Quiet.withInputs s rest).phaseOk.trans hs))
  · obtain hn | ⟨offset, size, hacc⟩ := hostStep_answers inp (s.withInputs rest)
    · exact .inl hn
    · obtain ⟨hok, hbad⟩ := hacc.hostStep_shape (s.withInputs rest)
      by_cases hsh : size = 4 ∧ offset.toNat % 4 = 0
      · exact .inl (hok hsh)
      · refine .inr ⟨hbad hsh, offset, size, ?_⟩
        cases hacc with
        | read => exact ⟨0, rest, hsh, .inl hi⟩
        | write v => exact ⟨v, rest, hsh, .inr hi⟩

/-! ### At the engine's turn a step runs what the decoder reads -/

/-- In an operation's first step and in its body a turn of the engine interprets. -/
theorem engineStep_interprets {s : State} (hr : s.plat.inReset = false)
    (hp : s.eng.phase = .start ∨ s.eng.phase = .body) : engineStep s = interpretStep s.drawn :=
  hp.elim (engineStep_start hr) (engineStep_body hr)

theorem step_turn_interprets {s t : State} (ht : s.turn t) (hp : t.eng.phase = .start ∨ t.eng.phase = .body) :
    step s = interpretStep t := by
  obtain ⟨hr, ⟨hi, rfl⟩ | ⟨rest, hi, rfl⟩⟩ := ht
  · rw [step_no_inputs hi, engineStep_interprets hr hp]
  · rw [step_engine hi, engineStep_interprets (s := s.withInputs rest) hr hp]

theorem step_turn_runs {s t : State} {i : Instr} (ht : s.turn t) (hp : t.eng.phase = .start ∨ t.eng.phase = .body)
    (hf : t.fetch = .run i) : step s = exec i t := by
  rw [step_turn_interprets ht hp, interpretStep_run hf]

/-- What CTRL reads as, with START = 1, is decoded as the command of the fields it holds (spec/20_memory.md R95). -/
theorem decodeCommand_packCtrl (op : BitVec 4) (bpp : BitVec 3) (f : CmdFlags) :
    decodeCommand (packCtrl op bpp f ||| 1) = .ok (commandOf op bpp f) := by
  have hop : opOfWord (packCtrl op bpp f ||| 1) = op := by
    refine BitVec.eq_of_getLsbD_eq fun k hk => ?_
    interval_cases k <;> simp [opOfWord, packCtrl]
  have hbpp : bppOfWord (packCtrl op bpp f ||| 1) = bpp := by
    refine BitVec.eq_of_getLsbD_eq fun k hk => ?_
    interval_cases k <;> simp [bppOfWord, packCtrl]
  have hf : flagsOfWord (packCtrl op bpp f ||| 1) = f := by
    simp only [flagsOfWord, packCtrl, BitVec.getLsbD_or, BitVec.getLsbD_shiftLeft, BitVec.getLsbD_setWidth,
      bitWord_getLsbD]
    simp
  rw [decodeCommand, hop, hbpp, hf, if_pos (by simp)]

/-- Settles O9: the fetch of the phase and of the operation that runs is the decoder's reading. -/
theorem stepRunsDecoded : Obligations.StepRunsDecoded := by
  intro s t ht
  refine ⟨fun i hp hi => ?_, fun v i rest hr hlt hi => ?_, fun i rest hr hi => ?_, fun d i rest hr hi => ?_,
    fun hr => ?_⟩
  · have hi' : i = commandOf t.ctrl.op t.ctrl.bpp t.ctrl.flags := by
      have := (decodeCommand_packCtrl _ _ _).symm.trans hi
      cases this
      rfl
    exact step_turn_runs ht (.inl hp) (hi' ▸ State.fetch_start hp)
  · refine step_turn_runs ht (.inr (State.running_phase hr)) ?_
    rw [State.fetch_rle hr, State.fetchUnit, if_neg (by omega), hi]
  · refine step_turn_runs ht (.inr (State.running_phase hr)) ?_
    rw [State.fetch_huff hr, State.fetchCode, hi]
  · refine step_turn_runs ht (.inr (State.running_phase hr)) ?_
    rw [State.fetch_unpack hr, State.fetchPixel, hi]
  · exact step_turn_runs ht (.inr (hr.elim State.running_phase State.running_phase)) (State.fetch_enc hr)

end Sys2Proof.Machine
end

section
/-!
PROOF. The host and memory. An access of a byte that is not lent to the block writes and reads that byte
(spec/20_memory.md R80, R91); a breach of the hazard rule gives draws (R92, spec/70_reset_and_hazards.md R460, R465). A
step of a running operation either goes on and keeps the races (`State.KeepsRaces`), or ends them with a draw at each
raced byte of OUT (`State.SettlesRaces`).
-/

namespace Sys2Proof.Machine

/-! ### What is lent to the block (R460) -/

theorem State.engineActive_iff (s : State) : s.engineActive = true ↔ s.busy = true ∧ s.plat.inReset = false := by
  simp [State.engineActive]

theorem State.unseenOut_iff (s : State) (a : Nat) :
    s.unseenOut a = true ↔ ∃ r ∈ s.plat.unseen, r.base.toNat ≤ a ∧ a < r.base.toNat + r.len.toNat := by
  simp [State.unseenOut, inRegion]

theorem State.lentOut_iff (s : State) (a : Nat) :
    s.lentOut a = true ↔
      (s.busy = true ∧ s.plat.inReset = false ∧ s.inOut a = true) ∨ s.unseenOut a = true := by
  simp [State.lentOut, State.engineActive, and_assoc]

/-- The end of an operation lends OUT until the host observes it. -/
theorem State.unseenOut_raise (s : State) (c : ErrCode) (a : Nat) :
    (s.raise c).unseenOut a = (s.inOut a || s.unseenOut a) := by
  rw [State.unseenOut, State.raise_plat_unseen, List.any_cons]
  rfl

theorem State.unseenOut_finish (s : State) (a : Nat) : s.finish.unseenOut a = (s.inOut a || s.unseenOut a) := by
  rw [State.unseenOut, State.finish_plat_unseen, List.any_cons]
  rfl

/-! ### The host's memory accesses -/

theorem step_readMem {s : State} {a : Word} {rest : List Input} (h : s.plat.inputs = .readMem a :: rest) :
    step s = .next ((s.withInputs rest).hostReadMem a) := step_host h (by simp)

theorem step_writeMem {s : State} {a : Word} {v : Byte} {rest : List Input}
    (h : s.plat.inputs = .writeMem a v :: rest) : step s = .next ((s.withInputs rest).hostWriteMem a v) :=
  step_host h (by simp)

/-- A host read of a byte that is not lent returns the byte. -/
theorem State.hostReadMem_of_not_lent {s : State} {a : Word} (h : s.lentOut a.toNat = false) :
    s.hostReadMem a = s.withReadData ((s.memByte a.toNat).setWidth 32) := by
  simp [State.hostReadMem, h]

/-- After a host write its byte holds what the write leaves. -/
theorem State.memByte_hostWriteMem (s : State) (a : Word) (v : Byte) :
    (s.hostWriteMem a v).memByte a.toNat = s.hostWritten a v := by
  rw [State.hostWriteMem_eq]
  exact s.memByte_memWrite_self a.toNat (s.hostWritten a v)

/-- Settles O54: outside what is lent the host's accesses are those of plain memory. -/
theorem hostMemoryAccess : Obligations.HostMemoryAccess := by
  intro s a v rest hfree hseen
  have hunseen : s.unseenOut a.toNat = false := by
    rw [← Bool.not_eq_true, State.unseenOut_iff]
    rintro ⟨r, hr, hin⟩
    exact hseen r hr hin
  refine ⟨fun hi => ⟨s.mem.write a.toNat v, ?_, fun b => s.memByte_memWrite a.toNat b v⟩, fun hi => ?_⟩
  · have hno : (s.engineActive && (s.inIn a.toNat || s.inPal a.toNat || s.inOut a.toNat)) = false := by
      obtain hb | ⟨h1, h2, h3⟩ := hfree
      · simp [State.engineActive, hb]
      · simp [h1, h2, h3]
    rw [step_writeMem hi, State.hostWriteMem_of_free (s := s.withInputs rest) hunseen hno]
    rfl
  · have hlent : (s.withInputs rest).lentOut a.toNat = false := by
      rw [← Bool.not_eq_true, State.lentOut_iff]
      rintro (⟨hb, -, ho⟩ | hu)
      · obtain hb' | ⟨-, ho', -⟩ := hfree
        · exact Bool.false_ne_true (hb'.symm.trans hb)
        · exact Bool.false_ne_true (ho'.symm.trans ho)
      · exact Bool.false_ne_true (hunseen.symm.trans hu)
    rw [step_readMem hi, State.hostReadMem_of_not_lent hlent]
    rfl

/-! ### The relation: an operation goes on with its races -/

theorem State.raced_iff (s : State) (a : Nat) : s.raced a = true ↔ ∃ w ∈ s.plat.races, w.toNat = a := by
  simp [State.raced]

theorem State.races_length_pos {s : State} {a : Nat} (h : s.raced a = true) : 0 < s.plat.races.length := by
  obtain ⟨w, hw, -⟩ := (s.raced_iff a).mp h
  exact List.length_pos_of_mem hw

/-- From s to t the operation goes on: no race is lost, no draw is given back, and the regions stay. -/
structure State.KeepsRaces (s t : State) : Prop where
  races : s.plat.races ⊆ t.plat.races
  draws : s.plat.draws ≤ t.plat.draws
  inReset : t.plat.inReset = s.plat.inReset
  cfg : t.cfg = s.cfg
  busy : t.busy = s.busy

namespace State.KeepsRaces

/-- A change that leaves the platform's side alone. -/
theorem of_plat_eq {s t : State} (hp : t.plat = s.plat) (hc : t.cfg = s.cfg) (hb : t.busy = s.busy) :
    s.KeepsRaces t where
  races := by
    rw [hp]
    exact List.Subset.refl _
  draws := by rw [hp]
  inReset := by rw [hp]
  cfg := hc
  busy := hb

theorem refl (s : State) : s.KeepsRaces s := of_plat_eq rfl rfl rfl

theorem trans {s t u : State} (h : s.KeepsRaces t) (h' : t.KeepsRaces u) : s.KeepsRaces u where
  races := List.Subset.trans h.races h'.races
  draws := h.draws.trans h'.draws
  inReset := h'.inReset.trans h.inReset
  cfg := h'.cfg.trans h.cfg
  busy := h'.busy.trans h.busy

theorem withInputs (s : State) (l : List Input) : s.KeepsRaces (s.withInputs l) :=
  ⟨List.Subset.refl _, Nat.le_refl _, rfl, rfl, rfl⟩

theorem drawn (s : State) : s.KeepsRaces s.drawn := ⟨List.Subset.refl _, Nat.le_add_right _ _, rfl, rfl, rfl⟩

theorem raced {s t : State} (h : s.KeepsRaces t) {a : Nat} (ha : s.raced a = true) : t.raced a = true := by
  obtain ⟨w, hw, hwa⟩ := (s.raced_iff a).mp ha
  exact (t.raced_iff a).mpr ⟨w, h.races hw, hwa⟩

theorem inOut {s t : State} (h : s.KeepsRaces t) (a : Nat) : t.inOut a = s.inOut a := by
  rw [State.inOut, State.inOut, h.cfg]

end State.KeepsRaces

/-! ### The relation: the races end -/

/-- From s to t the races that there are by then are settled: the operation has ended, or reset is asserted. -/
def State.SettlesRaces (s t : State) : Prop :=
  ∃ u, s.KeepsRaces u ∧ t.mem = u.settle.mem ∧ t.plat.draws = u.settle.plat.draws ∧
    (t.busy = false ∨ t.plat.inReset = true)

/-- At t the byte is a draw whose number was not used at s. -/
def State.HoldsFreshDraw (s t : State) (a : Nat) : Prop :=
  ∃ n, s.plat.draws < n ∧ n ≤ t.plat.draws ∧ t.memByte a = Config.raceByte n 0 a

/-- Where the races are settled, a raced byte of OUT is left a fresh draw (R92). -/
theorem State.SettlesRaces.holdsFreshDraw {s t : State} (h : s.SettlesRaces t) {a : Nat} (hr : s.raced a = true)
    (ho : s.inOut a = true) : s.HoldsFreshDraw t a := by
  obtain ⟨u, hk, hm, hd, -⟩ := h
  have hur := hk.raced hr
  have hpos := State.races_length_pos hur
  have hle := hk.draws
  rw [State.settle_plat_draws] at hd
  obtain ⟨w, hw, rfl⟩ := (u.raced_iff a).mp hur
  refine ⟨t.plat.draws, by omega, Nat.le_refl _, ?_⟩
  rw [State.memByte_congr hm, State.memByte_settle_raced hw ((hk.inOut _).trans ho), State.settledByte, hd]

theorem State.SettlesRaces.of_keepsRaces {s t u : State} (h : s.KeepsRaces t) (h' : t.SettlesRaces u) :
    s.SettlesRaces u := by
  obtain ⟨v, hk, hrest⟩ := h'
  exact ⟨v, h.trans hk, hrest⟩

theorem State.SettlesRaces.finish {s u : State} (h : s.KeepsRaces u) : s.SettlesRaces u.finish :=
  ⟨u, h, rfl, rfl, .inl rfl⟩

theorem State.settlesRaces_raise (s : State) (c : ErrCode) : s.SettlesRaces (s.raise c) :=
  ⟨s, .refl s, rfl, rfl, .inl rfl⟩

theorem State.settlesRaces_assertReset (s : State) : s.SettlesRaces s.assertReset :=
  ⟨s, .refl s, rfl, rfl, .inr rfl⟩

/-- From s to t the operation goes on with its races, or the races are settled. -/
def State.HandlesRaces (s t : State) : Prop := s.KeepsRaces t ∨ s.SettlesRaces t

theorem State.HandlesRaces.of_keepsRaces {s t u : State} (h : s.KeepsRaces t) (h' : t.HandlesRaces u) :
    s.HandlesRaces u := h'.imp h.trans (.of_keepsRaces h)

theorem State.handlesRaces_raise (s : State) (c : ErrCode) : s.HandlesRaces (s.raise c) :=
  .inr (s.settlesRaces_raise c)

/-! ### The writes to OUT -/

theorem State.keepsRaces_outWriteList (s : State) (k : Nat) (vs : List Byte) : s.KeepsRaces (s.outWriteList k vs) := by
  rw [State.outWriteList_eq]
  exact .of_plat_eq rfl rfl rfl

theorem keepsRaces_putPixels_put4 (s : State) (x y : Nat) (vs : List Nibble) :
    s.KeepsRaces (putPixels State.put4 s x y vs) := by
  obtain ⟨-, -, hcfg, -, heng, hplat⟩ := putPixels_put4_frame vs s x y
  exact .of_plat_eq hplat hcfg (by rw [State.busy, State.busy, heng])

/-! ### Command words and the zero-fill -/

theorem State.handlesRaces_firstStep {s : State} (hb : s.busy = true) (op : Operation) (d : Depth) (f : CmdFlags) :
    s.HandlesRaces (s.firstStep op d f) := by
  cases hc : configError op d f s.cfg with
  | some c =>
    rw [State.firstStep_fails hc]
    exact s.handlesRaces_raise c
  | none =>
    rw [State.firstStep_enters hc]
    exact .inl (.of_plat_eq (s.enterOperation_plat op d) (s.enterOperation_cfg op d)
      ((s.enterOperation_busy op d).trans hb.symm))

theorem runCommand_handlesRaces {w : Word} {first : State → State} {s t : State} (hb : s.busy = true)
    (h : runCommand w first s = .next t) (hf : s.HandlesRaces (first s)) : s.HandlesRaces t := by
  obtain ⟨hi, rfl⟩ | ⟨-, rfl⟩ | rfl := runCommand_cases h
  · simp [State.busy, hi] at hb
  · exact hf
  · exact .inl (.refl _)

theorem zeroFillStep_keepsRaces {k : Word} {s t : State} (hb : s.busy = true) (h : zeroFillStep k s = .next t) :
    s.KeepsRaces t := by
  obtain ⟨op, d, -, -, -, -, -, rfl⟩ := zeroFillStep_cases h
  refine .of_plat_eq rfl rfl ?_
  rw [hb]
  split <;> rfl

/-! ### RLE units -/

theorem rleUnit_handlesRaces {v : Rle} {len : Nat} {effect : State → State} {s t : State}
    (h : rleUnit v len effect s = .next t) (he : s.HandlesRaces (effect s)) : s.HandlesRaces t := by
  obtain ⟨-, ⟨-, rfl⟩ | ⟨-, rfl⟩⟩ := rleUnit_cases h
  · exact s.handlesRaces_raise _
  · exact he

theorem rlePixels_handlesRaces {v : Rle} {len n : Nat} {write : State → State} {s t : State}
    (h : rlePixels v len n write s = .next t) (hw : s.KeepsRaces (write s)) : s.HandlesRaces t := by
  obtain ⟨-, ⟨c, rfl⟩ | ⟨-, -, rfl⟩⟩ := rlePixels_cases h
  · exact s.handlesRaces_raise c
  · exact .inl (hw.trans (.of_plat_eq rfl rfl rfl))

/-! ### Emitted units -/

theorem State.keepsRaces_emit {s t : State} {u : List Byte} (h : s.emit u = some t) : s.KeepsRaces t := by
  obtain ⟨-, hn⟩ | ⟨-, hs⟩ := s.emit_cases u
  · cases hn.symm.trans h
  · cases hs.symm.trans h
    exact .of_plat_eq (State.outWriteList_plat _ _ _) (State.outWriteList_cfg _ _ _) rfl

theorem State.emitUnit_handlesRaces {s t : State} {u : List Byte} {pixels items : Nat}
    (h : s.emitUnit u pixels items = .next t) : s.HandlesRaces t := by
  obtain rfl | ⟨e, he, rfl⟩ := State.emitUnit_cases h
  · exact s.handlesRaces_raise _
  · exact .inl ((State.keepsRaces_emit he).trans (.of_plat_eq rfl rfl rfl))

theorem endRow_handlesRaces {unit : List Byte} {next : State → State} {s t : State}
    (h : endRow unit next s = .next t) (hn : ∀ e : State, e.HandlesRaces (next e)) : s.HandlesRaces t := by
  obtain ⟨-, ⟨-, rfl⟩ | ⟨-, -, rfl⟩ | ⟨-, e, he, rfl⟩⟩ := endRow_cases h
  · exact s.handlesRaces_raise _
  · exact s.handlesRaces_raise _
  · exact .of_keepsRaces (State.keepsRaces_emit he) (hn e)

/-! ### Group-3 codes -/

theorem CodeEffect.keepsRaces {effect : State → Except ErrCode State} (he : CodeEffect effect) {s u : State}
    (h : effect s = .ok u) : s.KeepsRaces u := by
  cases he with
  | terminating n =>
    obtain ⟨-, -, rfl⟩ := terminateRun_ok h
    obtain ⟨-, -, hcfg, -, -, hplat⟩ := s.putBitRun_frame (s.eng.pend.toNat + n) s.eng.x.toNat s.eng.y.toNat
      (Color.bit s.eng.color)
    exact .of_plat_eq hplat hcfg rfl
  | makeUp n =>
    obtain ⟨-, rfl⟩ := makeUpRun_ok h
    exact .of_plat_eq rfl rfl rfl

theorem runCode_handlesRaces {len : Nat} {effect : State → Except ErrCode State} (he : CodeEffect effect)
    {s t : State} (h : runCode len effect s = .next t) : s.HandlesRaces t := by
  obtain ⟨-, ⟨c, rfl⟩ | ⟨-, u, hu, rfl⟩⟩ := runCode_cases h
  · exact s.handlesRaces_raise c
  · exact .inl ((he.keepsRaces hu).trans (.of_plat_eq rfl rfl rfl))

theorem execEol_handlesRaces {fill : Nat} {s t : State} (h : execEol fill s = .next t) : s.HandlesRaces t := by
  have hk : s.KeepsRaces { s with eng := eolEngine s.eng } := .of_plat_eq rfl rfl s.keeps_eolEngine.busy
  obtain ⟨-, ⟨-, rfl⟩ | ⟨-, -, rfl⟩ | ⟨-, -, rfl⟩⟩ := execEol_cases h
  · exact s.handlesRaces_raise _
  · exact .inr (.finish (hk.trans (.of_plat_eq rfl rfl rfl)))
  · exact .inl (hk.trans (.of_plat_eq rfl rfl rfl))

/-! ### Pixels -/

theorem State.handlesRaces_nextPixel (s : State) (d : Depth) : s.HandlesRaces (s.nextPixel d) := by
  unfold State.nextPixel
  dsimp only
  split
  · exact .inl (.of_plat_eq rfl rfl rfl)
  · split
    · exact .inl (.of_plat_eq rfl rfl rfl)
    · exact .inr (.finish (.of_plat_eq rfl rfl rfl))

theorem pixelStep_handlesRaces {d : Depth} {color : State → Option Rgba} {s t : State}
    (h : pixelStep d color s = .next t) : s.HandlesRaces t := by
  obtain ⟨-, ⟨-, rfl⟩ | ⟨c, -, rfl⟩⟩ := pixelStep_cases h
  · exact s.handlesRaces_raise _
  · exact .of_keepsRaces (s.keepsRaces_outWriteList _ _) (State.handlesRaces_nextPixel _ d)

/-! ### Every instruction and every step of a running operation -/

theorem ExecForm.handlesRaces {s t : State} {o : Host.Outcome State Fault Refusal} (hf : ExecForm s o)
    (hb : s.busy = true) (h : o = .next t) : s.HandlesRaces t := by
  cases hf with
  | legalCommand w op d f => exact runCommand_handlesRaces hb h (State.handlesRaces_firstStep hb op d f)
  | reservedCommand w => exact runCommand_handlesRaces hb h (s.handlesRaces_raise _)
  | pixels8 len n vs hn => exact rlePixels_handlesRaces h (putPixels_put8 _ _ _ _ ▸ s.keepsRaces_outWriteList _ _)
  | pixels4 len n vs hn => exact rlePixels_handlesRaces h (keepsRaces_putPixels_put4 s _ _ _)
  | pixels24 len n vs hn => exact rlePixels_handlesRaces h (putPixels_put24 _ _ _ _ ▸ s.keepsRaces_outWriteList _ _)
  | rleEol v => exact rleUnit_handlesRaces h (.inl (.of_plat_eq rfl rfl rfl))
  | rleEob v => exact rleUnit_handlesRaces h (.inr (.finish (.of_plat_eq rfl rfl rfl)))
  | rleDelta v dx dy => exact rleUnit_handlesRaces h (.inl (.of_plat_eq rfl rfl rfl))
  | emitUnit u pixels items => exact State.emitUnit_handlesRaces h
  | encEol => exact endRow_handlesRaces h fun _ => .inl (.of_plat_eq rfl rfl rfl)
  | encEob => exact endRow_handlesRaces h fun _ => .inr (.finish (.of_plat_eq rfl rfl rfl))
  | runCode len effect he => exact runCode_handlesRaces he h
  | eolCode fill => exact execEol_handlesRaces h
  | pixel d color => exact pixelStep_handlesRaces h

theorem interpretStep_handlesRaces {s t : State} (hb : s.busy = true) (h : interpretStep s = .next t) :
    s.HandlesRaces t := by
  obtain ⟨i, -, h⟩ | ⟨-, rfl⟩ | ⟨c, -, rfl⟩ := interpretStep_cases h
  · exact (exec_form i s).handlesRaces hb h
  · exact .inr (.finish (.of_plat_eq rfl rfl rfl))
  · exact s.handlesRaces_raise c

theorem engineStep_handlesRaces {s t : State} (hb : s.busy = true) (h : engineStep s = .next t) : s.HandlesRaces t := by
  obtain he | ⟨-, k, -, he⟩ | ⟨-, -, he⟩ := engineStep_cases s
  · cases he.symm.trans h
    exact .inl (.refl s)
  · exact .inl ((State.KeepsRaces.drawn s).trans (zeroFillStep_keepsRaces (s := s.drawn) hb (he.symm.trans h)))
  · exact .of_keepsRaces (.drawn s) (interpretStep_handlesRaces (s := s.drawn) hb (he.symm.trans h))

/-- While BUSY a register write changes nothing but DONE. -/
theorem State.keepsRaces_writeReg {s : State} (hb : s.busy = true) (offset : Nat) (v : Word) :
    s.KeepsRaces (s.writeReg offset v) := by
  by_cases h4 : offset = 4
  · rw [h4, State.writeReg_status_offset, State.writeStatus_eq]
    exact .of_plat_eq rfl rfl rfl
  · rw [State.writeReg_of_busy hb h4]
    exact .refl s

theorem State.keepsRaces_hostWriteMem (s : State) (a : Word) (v : Byte) : s.KeepsRaces (s.hostWriteMem a v) := by
  rw [State.hostWriteMem_eq]
  refine ⟨?_, ?_, rfl, rfl, rfl⟩
  · dsimp only
    split
    · exact List.subset_cons_self _ _
    · exact List.Subset.refl _
  · dsimp only
    split <;> omega

theorem State.keepsRaces_hostReadMem (s : State) (a : Word) : s.KeepsRaces (s.hostReadMem a) := by
  rw [State.hostReadMem_eq]
  refine ⟨List.Subset.refl _, ?_, rfl, rfl, rfl⟩
  dsimp only
  split <;> omega

/-- A host's access to a running operation keeps the races, but for an assertion of reset. -/
theorem hostStep_handlesRaces {inp : Input} {s t : State} (hb : s.busy = true) (hr : s.plat.inReset = false)
    (h : hostStep inp s = .next t) : s.HandlesRaces t := by
  obtain ⟨o, -, -, -, rfl⟩ | ⟨o, -, v, -, -, rfl⟩ | ⟨-, rfl⟩ | ⟨a, -, rfl⟩ | ⟨a, v, -, rfl⟩ | ⟨-, rfl⟩ | ⟨-, rfl⟩ |
    ⟨-, rfl⟩ := hostStep_cases h
  · rw [State.hostReadReg_eq]
    exact .inl ⟨List.Subset.refl _, Nat.le_refl _, rfl, rfl, rfl⟩
  · rw [hr]
    exact .inl (State.keepsRaces_writeReg hb _ v)
  · rw [State.hostReadIrq_eq]
    exact .inl ⟨List.Subset.refl _, Nat.le_refl _, rfl, rfl, rfl⟩
  · exact .inl (s.keepsRaces_hostReadMem a)
  · exact .inl (s.keepsRaces_hostWriteMem a v)
  · exact .inr s.settlesRaces_assertReset
  · rw [State.deassertReset_of_not_inReset hr]
    exact .inl (.refl s)
  · exact .inl (.refl _)

/-- Every step of a running operation goes on with its races or settles them. -/
theorem step_handlesRaces {s t : State} (hb : s.busy = true) (hr : s.plat.inReset = false) (h : step s = .next t) :
    s.HandlesRaces t := by
  obtain ⟨-, he⟩ | ⟨rest, -, he⟩ | ⟨inp, rest, -, -, he⟩ := step_cases s
  · exact engineStep_handlesRaces hb (he.symm.trans h)
  · exact .of_keepsRaces (.withInputs s rest) (engineStep_handlesRaces (s := s.withInputs rest) hb (he.symm.trans h))
  · exact .of_keepsRaces (.withInputs s rest) (hostStep_handlesRaces (s := s.withInputs rest) hb hr (he.symm.trans h))

/-- A step after which the operation still runs has lost no race. -/
theorem step_keepsRaces {s t : State} (hb : s.busy = true) (hr : s.plat.inReset = false) (h : step s = .next t)
    (hbt : t.busy = true) (hrt : t.plat.inReset = false) : s.KeepsRaces t := by
  obtain hk | ⟨-, -, -, -, he⟩ := step_handlesRaces hb hr h
  · exact hk
  · simp [hbt, hrt] at he

/-- A step after which the operation no longer runs has settled the races. -/
theorem step_settlesRaces {s t : State} (hb : s.busy = true) (hr : s.plat.inReset = false) (h : step s = .next t)
    (he : t.busy = false ∨ t.plat.inReset = true) : s.SettlesRaces t := by
  obtain hk | hs := step_handlesRaces hb hr h
  · simp [hk.busy, hk.inReset, hb, hr] at he
  · exact hs

/-! ### The breaches -/

/-- A host write into a region of the running operation is a race (R92). -/
theorem State.raced_hostWriteMem {s : State} {a : Word} (ha : s.engineActive = true)
    (hin : s.inIn a.toNat = true ∨ s.inPal a.toNat = true ∨ s.inOut a.toNat = true) (v : Byte) :
    (s.hostWriteMem a v).raced a.toNat = true := by
  have hc : (s.engineActive && (s.inIn a.toNat || s.inPal a.toNat || s.inOut a.toNat)) = true := by
    simpa [ha, or_assoc] using hin
  rw [State.raced_iff, State.hostWriteMem_eq]
  refine ⟨a, ?_, rfl⟩
  dsimp only
  rw [if_pos hc]
  exact List.mem_cons_self

/-- What the engine reads of a raced byte is the draw of its place (R92, R465). -/
theorem State.engRead_raced {s : State} {a : Nat} (h : s.raced a = true) (place : Nat) :
    s.engRead place a = Config.raceByte s.plat.draws place a := if_pos h

theorem State.hostReadMem_of_lent {s : State} {a : Word} (h : s.lentOut a.toNat = true) :
    (s.hostReadMem a).plat.draws = s.plat.draws + 1 ∧
      (s.hostReadMem a).plat.readData = (Config.raceByte (s.plat.draws + 1) 0 a.toNat).setWidth 32 := by
  rw [State.hostReadMem_eq]
  exact ⟨if_pos h, if_pos h⟩

theorem State.hostWriteMem_of_unseen {s : State} {a : Word} (h : s.unseenOut a.toNat = true) (v : Byte) :
    (s.hostWriteMem a v).plat.draws = s.plat.draws + 1 ∧
      (s.hostWriteMem a v).memByte a.toNat = Config.raceByte (s.plat.draws + 1) 0 a.toNat := by
  refine ⟨?_, (s.memByte_hostWriteMem a v).trans (if_pos h)⟩
  rw [State.hostWriteMem_eq]
  exact if_pos h

/-- Settles O55: a write while BUSY is a race, which every step keeps or settles; a lent OUT is read and written as
draws. -/
theorem breachGivesDraws : Obligations.BreachGivesDraws := by
  refine ⟨fun s t a v rest hb hr hi hin h => ?_, fun u a hb hr ha => ?_, fun s a rest hi hlent => ?_,
    fun s a v rest hi hu => ?_, fun s c a => ⟨s.unseenOut_raise c a, s.unseenOut_finish a⟩, fun s rest hi => ?_⟩
  · cases (step_writeMem hi).symm.trans h
    have hk := (s.withInputs rest).keepsRaces_hostWriteMem a v
    have hact : (s.withInputs rest).engineActive = true := (State.engineActive_iff _).mpr ⟨hb, hr⟩
    exact ⟨hk.busy.trans hb, hk.inReset.trans hr, State.raced_hostWriteMem hact hin v⟩
  · have hpos := State.races_length_pos ha
    refine ⟨State.engRead_raced (s := u.drawn) ha, by rw [State.drawn_plat_draws]; omega,
      fun t h hbt hrt => (step_keepsRaces hb hr h hbt hrt).raced ha, fun ho => ⟨fun t h he => ?_, fun c => ?_, ?_⟩⟩
    · exact (step_settlesRaces hb hr h he).holdsFreshDraw ha ho
    · exact (u.settlesRaces_raise c).holdsFreshDraw ha ho
    · exact (State.SettlesRaces.finish (.refl u)).holdsFreshDraw ha ho
  · exact ⟨_, step_readMem hi, State.hostReadMem_of_lent (s := s.withInputs rest) ((State.lentOut_iff _ _).mpr hlent)⟩
  · exact ⟨_, step_writeMem hi, State.hostWriteMem_of_unseen (s := s.withInputs rest) hu v⟩
  · rw [step_host hi (by simp), hostStep, State.hostReadIrq_eq]
    rfl

end Sys2Proof.Machine
end

section
/-!
PROOF. The encodings of the byte streams and of the command word (spec/30_encoding.md R111 to R126,
spec/43_rle_encode.md R286 to R289): one equation of the decoder for each head of a unit, the length that a head
announces, and the fields of the command word.
-/

namespace Sys2Proof

/-! ### The heads of an RLE unit (R115, R119, R120) -/

/-- Every byte pair is the head of a run, of one of the three escapes, or of an absolute run. -/
theorem unitHead_cases (c d : Byte) : c ≠ 0 ∨ c = 0 ∧ (d = 0 ∨ d = 1 ∨ d = 2 ∨ 3 ≤ d.toNat) := by
  bv_omega

/-- The second head byte of an absolute run is no escape. -/
theorem absHead_ne {n : Byte} (hn : 3 ≤ n.toNat) : n ≠ 0 ∧ n ≠ 1 ∧ n ≠ 2 := by
  bv_omega

theorem decodeUnit_run (v : Rle) {c : Byte} (hc : c ≠ 0) (d : Byte) (t : List Byte) :
    decodeUnit v (c :: d :: t) = decodeRun v c d t := if_pos hc

theorem decodeUnit_eol (v : Rle) (t : List Byte) : decodeUnit v (0 :: 0 :: t) = .ok (v.eol, t) := rfl

theorem decodeUnit_eob (v : Rle) (t : List Byte) : decodeUnit v (0 :: 1 :: t) = .ok (v.eob, t) := rfl

theorem decodeUnit_delta (v : Rle) (dx dy : Byte) (t : List Byte) :
    decodeUnit v (0 :: 2 :: dx :: dy :: t) = .ok (v.delta dx dy, t) := rfl

theorem decodeUnit_delta_short (v : Rle) {t : List Byte} (ht : t.length < 2) :
    decodeUnit v (0 :: 2 :: t) = .error .truncated := by
  match t, ht with
  | [], _ => rfl
  | [_], _ => rfl

theorem decodeUnit_abs (v : Rle) {n : Byte} (hn : 3 ≤ n.toNat) (t : List Byte) :
    decodeUnit v (0 :: n :: t) = decodeAbs v n t := by
  obtain ⟨h0, h1, h2⟩ := absHead_ne hn
  unfold decodeUnit
  dsimp only
  rw [if_neg (not_not.mpr rfl), if_neg h0, if_neg h1, if_neg h2]

/-! ### Absolute runs (R120) -/

/-- The absolute run of each variant. -/
def Rle.abs : Rle → Byte → List Byte → Instr
  | .rle8, n, data => .rle8Abs n data
  | .rle4, n, data => .rle4Abs n data
  | .rle24, n, data => .rle24Abs n data

/-- The bytes of an absolute run after its head: the data bytes and the pad. -/
def Rle.paddedLength (v : Rle) (n : Byte) : Nat := v.dataBytes n.toNat + v.dataBytes n.toNat % 2

theorem decodeAbs_eq (v : Rle) (n : Byte) (t : List Byte) :
    decodeAbs v n t =
      if t.length < v.paddedLength n then .error .truncated
      else .ok (v.abs n (t.take (v.dataBytes n.toNat)), t.drop (v.paddedLength n)) := by
  simp only [decodeAbs, Rle.paddedLength, List.length_take, min_lt_iff, lt_irrefl, false_or]
  cases v <;> rfl

theorem decodeAbs_short {v : Rle} {n : Byte} {t : List Byte} (h : t.length < v.paddedLength n) :
    decodeAbs v n t = .error .truncated := by
  rw [decodeAbs_eq, if_pos h]

theorem decodeAbs_long {v : Rle} {n : Byte} {t : List Byte} (h : v.paddedLength n ≤ t.length) :
    decodeAbs v n t = .ok (v.abs n (t.take (v.dataBytes n.toNat)), t.drop (v.paddedLength n)) := by
  rw [decodeAbs_eq, if_neg (not_lt.mpr h)]

theorem decodeEmitAbs_eq (v : Rle) (n : Byte) (t : List Byte) :
    decodeEmitAbs v n t =
      if t.length < v.paddedLength n then .error .truncated
      else .ok (.encAbs n (t.take (v.dataBytes n.toNat)), t.drop (v.paddedLength n)) := by
  simp only [decodeEmitAbs, Rle.paddedLength, List.length_take, min_lt_iff, lt_irrefl, false_or]
  rfl

theorem absWellFormed_iff (v : Rle) (n : Byte) (data : List Byte) :
    absWellFormed v n data = true ↔ 3 ≤ n.toNat ∧ data.length = v.dataBytes n.toNat := by
  simp [absWellFormed]

theorem Rle.abs_wellFormed (v : Rle) (n : Byte) (data : List Byte) :
    (v.abs n data).wellFormed = absWellFormed v n data := by
  cases v <;> rfl

/-- The data bytes that a decoder takes are as many as the head announces. -/
theorem absWellFormed_take {v : Rle} {n : Byte} (hn : 3 ≤ n.toNat) {t : List Byte} (h : v.paddedLength n ≤ t.length) :
    absWellFormed v n (t.take (v.dataBytes n.toNat)) = true := by
  rw [absWellFormed_iff, List.length_take, min_eq_left ((Nat.le_add_right _ _).trans h)]
  exact ⟨hn, rfl⟩

/-- The bytes after the head of a well-formed absolute run, in a stream: its data and its pad come first. -/
theorem absTail_stream {v : Rle} {n : Byte} {data : List Byte} (hd : data.length = v.dataBytes n.toNat)
    (rest : List Byte) :
    v.paddedLength n ≤ (data ++ padBytes data.length ++ rest).length ∧
      (data ++ padBytes data.length ++ rest).take (v.dataBytes n.toNat) = data ∧
      (data ++ padBytes data.length ++ rest).drop (v.paddedLength n) = rest := by
  have hlen : v.paddedLength n = (data ++ padBytes data.length).length := by
    simp [Rle.paddedLength, padBytes, hd]
  refine ⟨?_, ?_, ?_⟩
  · rw [hlen, List.length_append (bs := rest)]
    exact Nat.le_add_right _ _
  · rw [List.append_assoc, ← hd, List.take_left]
  · rw [hlen, List.drop_left]

theorem decodeUnit_absBytes {v : Rle} {n : Byte} {data : List Byte} (h : absWellFormed v n data = true)
    (rest : List Byte) : decodeUnit v (absBytes n data ++ rest) = .ok (v.abs n data, rest) := by
  obtain ⟨hn, hd⟩ := (absWellFormed_iff v n data).mp h
  obtain ⟨hle, htake, hdrop⟩ := absTail_stream hd rest
  calc decodeUnit v (absBytes n data ++ rest)
      = decodeAbs v n (data ++ padBytes data.length ++ rest) := decodeUnit_abs v hn _
    _ = .ok (v.abs n data, rest) := by rw [decodeAbs_long hle, htake, hdrop]

/-! ### A unit in a stream -/

/-- A byte of two nibbles gives them back (R125). -/
theorem nibbles_high (h l : Nibble) : (nibbles h l).extractLsb' 4 4 = h := BitVec.extractLsb'_append_eq_left

theorem nibbles_low (h l : Nibble) : (nibbles h l).extractLsb' 0 4 = l := BitVec.extractLsb'_append_eq_right

/-- Settles O2: by the kind of the unit; a run's length is fixed, an escape's operands follow its head, and an absolute
run's head announces its data and pad. -/
theorem unitInStream : Obligations.UnitInStream := by
  intro tbl v i rest hw hctx
  cases i with
  | rle8Run c val =>
    cases hctx
    exact decodeUnit_run .rle8 (by simpa [Instr.wellFormed] using hw) val rest
  | rle4Run c h l =>
    cases hctx
    refine (decodeUnit_run .rle4 (by simpa [Instr.wellFormed] using hw) (nibbles h l) rest).trans ?_
    rw [decodeRun, nibbles_high, nibbles_low]
  | rle24Run c b0 b1 b2 =>
    cases hctx
    exact decodeUnit_run .rle24 (by simpa [Instr.wellFormed] using hw) b0 (b1 :: b2 :: rest)
  | rle8Eol | rle4Eol | rle24Eol =>
    cases hctx
    exact decodeUnit_eol _ rest
  | rle8Eob | rle4Eob | rle24Eob =>
    cases hctx
    exact decodeUnit_eob _ rest
  | rle8Delta dx dy | rle4Delta dx dy | rle24Delta dx dy =>
    cases hctx
    exact decodeUnit_delta _ dx dy rest
  | rle8Abs n data | rle4Abs n data | rle24Abs n data =>
    cases hctx
    exact decodeUnit_absBytes hw rest
  | encAbs n data =>
    rw [Instr.context] at hctx
    split at hctx <;> cases hctx
  | _ => cases hctx

/-! ### The length that a head announces (R121) -/

theorem unitLength_run (v : Rle) {c : Byte} (hc : c ≠ 0) (d : Byte) :
    unitLength v c d = if v = .rle24 then 4 else 2 := if_pos hc

theorem unitLength_abs (v : Rle) {n : Byte} (hn : 3 ≤ n.toNat) : unitLength v 0 n = 2 + v.paddedLength n := by
  rw [unitLength, if_neg (by simp), if_neg (by omega), if_neg (by omega), Rle.paddedLength, Nat.add_assoc]

theorem unitLength_even (v : Rle) (c d : Byte) : unitLength v c d % 2 = 0 := by
  unfold unitLength
  split_ifs <;> omega

/-- What a decoder answers to a stream that begins with the head c, d: the unit and the bytes after its length, or
TRUNCATED. -/
theorem decodeUnit_by_length (v : Rle) (c d : Byte) (t : List Byte) :
    (unitLength v c d ≤ t.length + 2 → ∃ i, decodeUnit v (c :: d :: t) = .ok (i, t.drop (unitLength v c d - 2))) ∧
      (t.length + 2 < unitLength v c d → decodeUnit v (c :: d :: t) = .error .truncated) := by
  obtain hc | ⟨rfl, rfl | rfl | rfl | hn⟩ := unitHead_cases c d
  · rw [decodeUnit_run v hc, unitLength_run v hc]
    match v, t with
    | .rle8, t => exact ⟨fun _ => ⟨_, rfl⟩, fun h => absurd h (by simp)⟩
    | .rle4, t => exact ⟨fun _ => ⟨_, rfl⟩, fun h => absurd h (by simp)⟩
    | .rle24, [] => exact ⟨fun h => absurd h (by simp), fun _ => rfl⟩
    | .rle24, [_] => exact ⟨fun h => absurd h (by simp), fun _ => rfl⟩
    | .rle24, _ :: _ :: t => exact ⟨fun _ => ⟨_, rfl⟩, fun h => absurd h (by simp)⟩
  · exact ⟨fun _ => ⟨_, rfl⟩, fun h => absurd h (by simp [unitLength])⟩
  · exact ⟨fun _ => ⟨_, rfl⟩, fun h => absurd h (by simp [unitLength])⟩
  · have hl : unitLength v 0 2 = 4 := rfl
    rw [hl]
    refine ⟨fun h => ?_, fun h => decodeUnit_delta_short v (by omega)⟩
    match t with
    | [] | [_] => simp at h
    | dx :: dy :: t => exact ⟨_, decodeUnit_delta v dx dy t⟩
  · rw [decodeUnit_abs v hn, unitLength_abs v hn]
    refine ⟨fun h => ⟨v.abs d (t.take (v.dataBytes d.toNat)), ?_⟩, fun h => decodeAbs_short (by omega)⟩
    rw [decodeAbs_long (by omega), Nat.add_sub_cancel_left]

/-- Settles O4: the table of the statement is `unitLength`. -/
theorem unitLengthFromHead : Obligations.UnitLengthFromHead := by
  intro v c d t dataLen len
  have hlen : len = unitLength v c d := by
    have hd : (d.toNat = 0 ∨ d.toNat = 1) ↔ d.toNat < 2 := by omega
    simp only [len, dataLen, unitLength, hd]
    cases v <;> rfl
  rw [hlen]
  exact ⟨unitLength_even v c d, decodeUnit_by_length v c d t⟩

/-! ### The command word (R111) -/

/-- The bits of CTRL that a command word has a meaning for: START, OP, BPP, PALFMT, OUTFMT, A32 and IRQ_EN. -/
def commandMask : Word := 0x00013FF1

theorem opOfWord_and_commandMask (w : Word) : opOfWord (w &&& commandMask) = opOfWord w := by
  refine BitVec.eq_of_getLsbD_eq fun k hk => ?_
  interval_cases k <;> simp [opOfWord, commandMask]

theorem bppOfWord_and_commandMask (w : Word) : bppOfWord (w &&& commandMask) = bppOfWord w := by
  refine BitVec.eq_of_getLsbD_eq fun k hk => ?_
  interval_cases k <;> simp [bppOfWord, commandMask]

theorem flagsOfWord_and_commandMask (w : Word) : flagsOfWord (w &&& commandMask) = flagsOfWord w := by
  simp [flagsOfWord, commandMask]

/-- The reserved bits are ignored (R126). -/
theorem decodeCommand_and_commandMask (w : Word) : decodeCommand (w &&& commandMask) = decodeCommand w := by
  have hstart : (w &&& commandMask).getLsbD 0 = w.getLsbD 0 := by simp [commandMask]
  rw [decodeCommand, hstart, opOfWord_and_commandMask, bppOfWord_and_commandMask, flagsOfWord_and_commandMask,
    decodeCommand]

/-- The sum of a command word's fields, each at its place, with START = 1. -/
def commandSum (op : BitVec 4) (bpp : BitVec 3) (f : CmdFlags) : Nat :=
  f.irqEn.toNat * 2 ^ 16 + f.a32.toNat * 2 ^ 13 + f.outfmt.toNat * 2 ^ 12 + f.palfmt.toNat * 2 ^ 11 +
    bpp.toNat * 2 ^ 8 + op.toNat * 2 ^ 4 + 1

theorem getLsbD_ofNat_of_div_mod {n k : Nat} {b : Bool} (hk : k < 32) (h : n / 2 ^ k % 2 = b.toNat) :
    (BitVec.ofNat 32 n).getLsbD k = b := by
  rw [BitVec.getLsbD_ofNat, Nat.testBit_eq_decide_div_mod_eq, h]
  cases b <;> simp [hk]

/-- Each field is read at the place where the sum puts it. -/
theorem decodeCommand_commandSum (op : BitVec 4) (bpp : BitVec 3) (f : CmdFlags) :
    decodeCommand (BitVec.ofNat 32 (commandSum op bpp f)) = .ok (commandOf op bpp f) := by
  have hop := op.isLt
  have hbpp := bpp.isLt
  have hirq := f.irqEn.toNat_le
  have ha32 := f.a32.toNat_le
  have hout := f.outfmt.toNat_le
  have hpal := f.palfmt.toNat_le
  have hbit {k : Nat} {b : Bool} (hk : k < 32) (h : commandSum op bpp f / 2 ^ k % 2 = b.toNat) :=
    getLsbD_ofNat_of_div_mod hk h
  unfold commandSum at hbit ⊢
  generalize hn : f.irqEn.toNat * 2 ^ 16 + f.a32.toNat * 2 ^ 13 + f.outfmt.toNat * 2 ^ 12 + f.palfmt.toNat * 2 ^ 11 +
    bpp.toNat * 2 ^ 8 + op.toNat * 2 ^ 4 + 1 = n at hbit ⊢
  have hstart : (BitVec.ofNat 32 n).getLsbD 0 = true := hbit (by omega) (by rw [Bool.toNat_true]; omega)
  have hopOf : opOfWord (BitVec.ofNat 32 n) = op := by
    refine BitVec.eq_of_toNat_eq ?_
    simp only [opOfWord, BitVec.extractLsb'_toNat, BitVec.toNat_ofNat, Nat.shiftRight_eq_div_pow]
    omega
  have hbppOf : bppOfWord (BitVec.ofNat 32 n) = bpp := by
    refine BitVec.eq_of_toNat_eq ?_
    simp only [bppOfWord, BitVec.extractLsb'_toNat, BitVec.toNat_ofNat, Nat.shiftRight_eq_div_pow]
    omega
  have hflags : flagsOfWord (BitVec.ofNat 32 n) = f := by
    have h11 : (BitVec.ofNat 32 n).getLsbD 11 = f.palfmt := hbit (by omega) (by omega)
    have h12 : (BitVec.ofNat 32 n).getLsbD 12 = f.outfmt := hbit (by omega) (by omega)
    have h13 : (BitVec.ofNat 32 n).getLsbD 13 = f.a32 := hbit (by omega) (by omega)
    have h16 : (BitVec.ofNat 32 n).getLsbD 16 = f.irqEn := hbit (by omega) (by omega)
    rw [flagsOfWord, h11, h12, h13, h16]
  rw [decodeCommand, hopOf, hbppOf, hflags, if_pos hstart]

/-- Settles O5: the fields by arithmetic on the sum, the reserved bits by the mask, and START = 0 by definition. -/
theorem commandWordFields : Obligations.CommandWordFields := by
  refine ⟨fun op bpp palfmt outfmt a32 irq => ?_, fun w w' h => ?_, fun w h => ?_⟩
  · exact decodeCommand_commandSum op bpp { palfmt := palfmt, outfmt := outfmt, a32 := a32, irqEn := irq }
  · calc decodeCommand w = decodeCommand (w &&& commandMask) := (decodeCommand_and_commandMask w).symm
      _ = decodeCommand (w' &&& commandMask) := congrArg decodeCommand h
      _ = decodeCommand w' := decodeCommand_and_commandMask w'
  · exact if_neg (Bool.eq_false_iff.mp h)

/-- A legal OP and BPP give the legal command (R112, R113). -/
theorem commandOf_code (op : Operation) (d : Depth) (f : CmdFlags) :
    commandOf op.code d.code f = legalCommand op d f := by
  simp [commandOf, Machine.Operation.ofCode_code, Machine.Depth.ofCode_code]

/-! ### What a decoder reads is well-formed -/

theorem legalCommand_wellFormed (op : Operation) (d : Depth) (f : CmdFlags) :
    (legalCommand op d f).wellFormed = true := by
  cases op <;> cases d <;> rfl

theorem reservedBppCommand_wellFormed (op : Operation) (bpp : BitVec 3) (f : CmdFlags) :
    (reservedBppCommand op bpp f).wellFormed = true := by
  unfold reservedBppCommand
  split <;> rfl

theorem reservedOpCommand_wellFormed (op : BitVec 4) (bpp : BitVec 3) (f : CmdFlags) :
    (reservedOpCommand op bpp f).wellFormed = true := by
  unfold reservedOpCommand
  split <;> rfl

theorem commandOf_wellFormed (op : BitVec 4) (bpp : BitVec 3) (f : CmdFlags) :
    (commandOf op bpp f).wellFormed = true := by
  unfold commandOf
  split
  · exact reservedOpCommand_wellFormed op bpp f
  · split
    · exact reservedBppCommand_wellFormed _ bpp f
    · exact legalCommand_wellFormed _ _ f

theorem decodeCommand_wellFormed {w : Word} {i : Instr} (h : decodeCommand w = .ok i) : i.wellFormed = true := by
  unfold decodeCommand at h
  split at h <;> cases h
  exact commandOf_wellFormed _ _ _

theorem decodeUnit_wellFormed {v : Rle} {bs rest : List Byte} {i : Instr} (h : decodeUnit v bs = .ok (i, rest)) :
    i.wellFormed = true := by
  match bs, h with
  | c :: d :: t, h =>
    obtain hc | ⟨rfl, rfl | rfl | rfl | hn⟩ := unitHead_cases c d
    · rw [decodeUnit_run v hc] at h
      unfold decodeRun at h
      split at h <;> cases h <;> simpa [Instr.wellFormed] using hc
    · cases h
      cases v <;> rfl
    · cases h
      cases v <;> rfl
    · match t, h with
      | dx :: dy :: t, h =>
        cases h
        cases v <;> rfl
    · rw [decodeUnit_abs v hn, decodeAbs_eq] at h
      split at h <;> cases h
      rw [Rle.abs_wellFormed]
      exact absWellFormed_take hn (not_lt.mp ‹_›)

theorem encAbs_wellFormed {v : Rle} (hv : v = .rle8 ∨ v = .rle4) {n : Byte} {data : List Byte}
    (h : absWellFormed v n data = true) : (Instr.encAbs n data).wellFormed = true := by
  rcases hv with rfl | rfl <;> simp [Instr.wellFormed, h]

theorem decodeEmit_wellFormed {v : Rle} (hv : v = .rle8 ∨ v = .rle4) {bs rest : List Byte} {i : Instr}
    (h : decodeEmit v bs = .ok (i, rest)) : i.wellFormed = true := by
  match bs, h with
  | c :: d :: t, h =>
    unfold decodeEmit at h
    dsimp only at h
    split_ifs at h with h3 h2 h1 hd0 hd1 hd2
    · cases h
      simpa [Instr.wellFormed] using h3
    · cases h
      rfl
    · split at h
      · split_ifs at h <;> cases h <;> rfl
      · cases h
        rfl
    · cases h
      rfl
    · cases h
      rfl
    · have hn : 3 ≤ d.toNat := by bv_omega
      rw [decodeEmitAbs_eq] at h
      split at h <;> cases h
      exact encAbs_wellFormed hv (absWellFormed_take hn (not_lt.mp ‹_›))

theorem decodePixel_wellFormed {d : Depth} {bs rest : List Byte} {i : Instr} (h : decodePixel d bs = .ok (i, rest)) :
    i.wellFormed = true := by
  unfold decodePixel at h
  split at h <;> cases h <;> rfl

set_option maxRecDepth 20000 in
theorem kindRows_wellFormed : ∀ r ∈ kindRows, r.instr.wellFormed = true := by
  decide

/-- A row of a table stands for the instruction of a default row. -/
theorem G3Table.exists_kindRow {tbl : G3Table} {r : CodeRow} (h : r ∈ tbl.kinds) :
    ∃ r0 ∈ kindRows, r.instr = r0.instr := by
  simp only [G3Table.kinds, List.mem_append] at h
  simp only [kindRows, List.mem_append]
  obtain (((h | h) | h) | h) | h := h
  all_goals
    obtain ⟨r0, h0, c, -, rfl⟩ := mem_withCodes h
    exact ⟨r0, by simp [h0], rfl⟩

theorem decodeCode_wellFormed {tbl : G3Table} {c : Color} {bits rest : List Bool} {i : Instr}
    (h : decodeCode tbl c bits = .ok (i, rest)) : i.wellFormed = true := by
  obtain ⟨r, hr, rfl, -⟩ | ⟨fill, rfl, -⟩ := Machine.readCode_ok h
  · obtain ⟨r0, h0, he⟩ := G3Table.exists_kindRow (G3Table.mem_kinds hr)
    rw [he]
    exact kindRows_wellFormed r0 h0
  · rfl

/-- A decoder's answer without the rest of the stream. -/
theorem exists_of_map_fst {α β ε : Type} {e : Except ε (α × β)} {a : α} (h : e.map Prod.fst = .ok a) :
    ∃ b, e = .ok (a, b) := by
  match e, h with
  | .ok (a, b), rfl => exact ⟨b, rfl⟩

/-- Settles O3: by the decoder that the context chooses. -/
theorem decodedWellFormed : Obligations.DecodedWellFormed := by
  intro tbl ctx w i h
  unfold decode at h
  split at h
  · exact decodeCommand_wellFormed h
  · obtain ⟨rest, h⟩ := exists_of_map_fst h
    exact decodeUnit_wellFormed h
  · obtain ⟨rest, h⟩ := exists_of_map_fst h
    exact decodeEmit_wellFormed (.inl rfl) h
  · obtain ⟨rest, h⟩ := exists_of_map_fst h
    exact decodeEmit_wellFormed (.inr rfl) h
  · obtain ⟨rest, h⟩ := exists_of_map_fst h
    exact decodeCode_wellFormed h
  · obtain ⟨rest, h⟩ := exists_of_map_fst h
    exact decodePixel_wellFormed h
  · cases h

end Sys2Proof
end

section
/-!
PROOF. Group-3 codes in a stream (spec/30_encoding.md R123, R124; spec/41_g3_decode.md R202): over a table in which no
code begins another, ReadCode follows the bits of a code to its end and stops there. With the units and the command words
of before, decoding is the inverse of encoding.
-/

namespace Sys2Proof

/-! ### A table in which no code begins another (R124) -/

/-- At each colour a well-formed table has code words of their lengths, and none begins another. -/
theorem G3Table.wf_rows {tbl : G3Table} (h : tbl.wf = true) (c : Color) :
    (∀ r ∈ tbl.rows c, r.code.wf = true) ∧
      (tbl.rows c).Pairwise fun r r' => r.code.isPrefixOf r'.code = false ∧ r'.code.isPrefixOf r.code = false := by
  simp only [G3Table.wf, Bool.and_eq_true, List.all_cons, List.all_nil, List.all_map, decide_eq_true_eq,
    List.pairwise_map, List.all_eq_true, Function.comp_apply, Bool.not_eq_true'] at h
  obtain ⟨-, hw, hb, -⟩ := h
  cases c
  · exact hw
  · exact hb

/-- A code word has its length and at most ten leading zeros. -/
theorem G3Table.row_bounds {tbl : G3Table} (h : tbl.wf = true) {c : Color} {r : CodeRow} (hr : r ∈ tbl.rows c) :
    r.val < 2 ^ r.len ∧ 2 ^ r.len ≤ 2 ^ 11 * r.val := by
  have hc := (G3Table.wf_rows h c).1 r hr
  simp only [Code.wf, Bool.and_eq_true, decide_eq_true_eq] at hc
  exact hc

theorem G3Table.row_val_pos {tbl : G3Table} (h : tbl.wf = true) {c : Color} {r : CodeRow} (hr : r ∈ tbl.rows c) :
    0 < r.val := by
  have := (G3Table.row_bounds h hr).2
  have := Nat.two_pow_pos r.len
  omega

/-- Only a row itself begins its code. -/
theorem G3Table.row_eq_of_begins {tbl : G3Table} (h : tbl.wf = true) {c : Color} {r r' : CodeRow} (hr : r ∈ tbl.rows c)
    (hr' : r' ∈ tbl.rows c) (hlen : r'.len ≤ r.len) (hval : r.val >>> (r.len - r'.len) = r'.val) : r' = r := by
  by_contra hne
  have : Std.Symm fun r r' : CodeRow => r.code.isPrefixOf r'.code = false ∧ r'.code.isPrefixOf r.code = false :=
    ⟨fun _ _ => And.symm⟩
  have hp := (G3Table.wf_rows h c).2.forall hr' hr hne
  simp [Code.isPrefixOf, CodeRow.code, hlen, hval] at hp

/-! ### ReadCode (R202) -/

theorem readCode_eol {rows : List CodeRow} {len val : Nat} {b : Bool} (t : List Bool) (hv : 2 * val + b.toNat = 1)
    (hl : 12 ≤ len + 1) : readCode rows len val (b :: t) = .ok (.eol (len + 1 - 12), t) := by
  rw [readCode, if_pos ⟨hv, hl⟩]

/-- ReadCode stops at a member of the set. -/
theorem readCode_found {rows : List CodeRow} {r : CodeRow} {len val : Nat} {b : Bool} (t : List Bool)
    (he : ¬ (2 * val + b.toNat = 1 ∧ 12 ≤ len + 1))
    (hf : rows.find? (fun r => r.len == len + 1 && r.val == 2 * val + b.toNat) = some r) :
    readCode rows len val (b :: t) = .ok (r.instr, t) := by
  rw [readCode, if_neg he, hf]

/-- ReadCode goes on after a string of zeros or a proper beginning of a member. -/
theorem readCode_more {rows : List CodeRow} {len val : Nat} {b : Bool} (t : List Bool)
    (he : ¬ (2 * val + b.toNat = 1 ∧ 12 ≤ len + 1))
    (hf : rows.find? (fun r => r.len == len + 1 && r.val == 2 * val + b.toNat) = none)
    (hp : 2 * val + b.toNat = 0 ∨ (rows.any fun r => r.extends (len + 1) (2 * val + b.toNat)) = true) :
    readCode rows len val (b :: t) = readCode rows (len + 1) (2 * val + b.toNat) t := by
  rw [readCode, if_neg he, hf]
  exact if_pos hp

/-- The first bits of a number, one bit more of them. -/
theorem shiftRight_eq_two_mul_add_testBit (v k : Nat) : v >>> k = 2 * (v >>> (k + 1)) + (v.testBit k).toNat := by
  rw [Nat.shiftRight_add, Nat.shiftRight_one, Nat.testBit_eq_decide_div_mod_eq, ← Nat.shiftRight_eq_div_pow]
  rcases Nat.mod_two_eq_zero_or_one (v >>> k) with h | h <;> simp [h] <;> omega

/-- The first bits of a code are never EOL's: a code has at most ten leading zeros. -/
theorem G3Table.row_not_eol {tbl : G3Table} (h : tbl.wf = true) {c : Color} {r : CodeRow} (hr : r ∈ tbl.rows c)
    {len k : Nat} (hk : len + k = r.len) : ¬ (r.val >>> k = 1 ∧ 12 ≤ len) := by
  rintro ⟨hv, hl⟩
  have hlt : r.val < 2 * 2 ^ k := by
    rw [Nat.shiftRight_eq_div_pow] at hv
    exact (Nat.div_lt_iff_lt_mul (Nat.two_pow_pos k)).mp (by omega)
  have hle : 2 ^ 12 * 2 ^ k ≤ 2 ^ r.len := by
    rw [← Nat.pow_add]
    exact Nat.pow_le_pow_right (by omega) (by omega)
  have hb := (G3Table.row_bounds h hr).2
  omega

/-- What the search of ReadCode finds along a code: the code's own row, at its end. -/
theorem G3Table.find_along {tbl : G3Table} (h : tbl.wf = true) {c : Color} {r : CodeRow} (hr : r ∈ tbl.rows c)
    {len k : Nat} (hk : len + k = r.len) :
    (tbl.rows c).find? (fun r' => r'.len == len && r'.val == r.val >>> k) = if k = 0 then some r else none := by
  cases hf : (tbl.rows c).find? (fun r' => r'.len == len && r'.val == r.val >>> k) with
  | none =>
    rw [if_neg]
    rintro rfl
    have := List.find?_eq_none.mp hf r hr
    simp [← hk] at this
  | some r' =>
    have hs := List.find?_some hf
    simp only [Bool.and_eq_true, beq_iff_eq] at hs
    obtain ⟨hl, hv⟩ := hs
    have hown : r' = r := G3Table.row_eq_of_begins h hr (List.mem_of_find?_eq_some hf) (by omega)
      (by rw [hv, hl, ← hk, Nat.add_sub_cancel_left])
    rw [if_pos (by rw [hown] at hl; omega), hown]

/-- ReadCode, the first `len` bits of a code taken and its last k + 1 next in the stream, finds the code. -/
theorem readCode_row {tbl : G3Table} (h : tbl.wf = true) {c : Color} {r : CodeRow} (hr : r ∈ tbl.rows c)
    (rest : List Bool) {len k : Nat} (hk : len + 1 + k = r.len) :
    readCode (tbl.rows c) len (r.val >>> (k + 1)) (bitsMsb (k + 1) r.val ++ rest) = .ok (r.instr, rest) := by
  induction k generalizing len with
  | zero =>
    have heol := G3Table.row_not_eol h hr hk
    have hfind := G3Table.find_along h hr hk
    rw [shiftRight_eq_two_mul_add_testBit] at heol hfind
    exact readCode_found _ heol hfind
  | succ k ih =>
    have heol := G3Table.row_not_eol h hr hk
    have hfind := G3Table.find_along h hr hk
    have hext : ((tbl.rows c).any fun r' => r'.extends (len + 1) (r.val >>> (k + 1))) = true :=
      List.any_eq_true.mpr ⟨r, hr, by simp [CodeRow.extends, ← hk]⟩
    have hgo := ih (len := len + 1) (by omega)
    rw [shiftRight_eq_two_mul_add_testBit] at heol hfind hext hgo
    exact (readCode_more _ heol hfind (.inr hext)).trans hgo

/-- The code at the head of a stream is read, and the bits after it are left. -/
theorem decodeCode_row {tbl : G3Table} (h : tbl.wf = true) {c : Color} {r : CodeRow} (hr : r ∈ tbl.rows c)
    (rest : List Bool) : decodeCode tbl c (bitsMsb r.len r.val ++ rest) = .ok (r.instr, rest) := by
  obtain ⟨hlt, -⟩ := G3Table.row_bounds h hr
  have hpos := G3Table.row_val_pos h hr
  obtain ⟨k, hk⟩ : ∃ k, r.len = k + 1 := Nat.exists_eq_succ_of_ne_zero (by
    rintro h0
    rw [h0, Nat.pow_zero] at hlt
    omega)
  have hrow := readCode_row h hr rest (len := 0) (k := k) (by omega)
  rw [← hk, Nat.shiftRight_eq_div_pow, Nat.div_eq_of_lt hlt] at hrow
  exact hrow

/-- ReadCode in a string of zeros that ends with a 1, eleven zeros or more in all, finds EOL. -/
theorem readCode_zeros {rows : List CodeRow} (hpos : ∀ r ∈ rows, 0 < r.val) (rest : List Bool) {n len : Nat}
    (hn : 11 ≤ len + n) :
    readCode rows len 0 (List.replicate n false ++ true :: rest) = .ok (.eol (len + n - 11), rest) := by
  induction n generalizing len with
  | zero => exact readCode_eol rest rfl (by omega)
  | succ n ih =>
    have hfind : rows.find? (fun r => r.len == len + 1 && r.val == 2 * 0 + false.toNat) = none := by
      refine List.find?_eq_none.mpr fun r hr => ?_
      simp [Nat.pos_iff_ne_zero.mp (hpos r hr)]
    refine (readCode_more _ (by simp) hfind (.inl rfl)).trans ?_
    rw [show len + (n + 1) = len + 1 + n by omega]
    exact ih (by omega)

theorem decodeCode_eol {tbl : G3Table} (h : tbl.wf = true) (c : Color) (fill : Nat) (rest : List Bool) :
    decodeCode tbl c (List.replicate (fill + 11) false ++ true :: rest) = .ok (.eol fill, rest) := by
  have hz := readCode_zeros (rows := tbl.rows c) (fun r hr => G3Table.row_val_pos h hr) rest (n := fill + 11) (len := 0)
    (by omega)
  rwa [Nat.zero_add, Nat.add_sub_cancel] at hz

/-! ### The rows of the code instructions (R251 to R255) -/

/-- A table with a code word for each run has a row for each default row. -/
theorem exists_mem_withCodes {rows : List CodeRow} {codes : List Code} (hl : codes.length = rows.length) {r0 : CodeRow}
    (h : r0 ∈ rows) : ∃ r ∈ withCodes rows codes, r.instr = r0.instr := by
  obtain ⟨n, hn, rfl⟩ := List.getElem_of_mem h
  exact ⟨(withCodes rows codes)[n]'(by simp [withCodes, hl, hn]), List.getElem_mem _, by simp [withCodes]⟩

theorem G3Table.wf_lengths {tbl : G3Table} (h : tbl.wf = true) :
    tbl.wt.length = whiteTerminating.length ∧ tbl.wm.length = whiteMakeUp.length ∧
      tbl.bt.length = blackTerminating.length ∧ tbl.bm.length = blackMakeUp.length ∧
      tbl.xm.length = sharedMakeUp.length := by
  simp only [G3Table.wf, Bool.and_eq_true, beq_iff_eq] at h
  obtain ⟨⟨⟨⟨⟨hwt, hwm⟩, hbt⟩, hbm⟩, hxm⟩, -⟩ := h
  exact ⟨hwt, hwm, hbt, hbm, hxm⟩

/-- The default rows of each colour's code set. -/
def defaultRows : Color → List CodeRow
  | .white => whiteTerminating ++ (whiteMakeUp ++ sharedMakeUp)
  | .black => blackTerminating ++ (blackMakeUp ++ sharedMakeUp)

theorem exists_row_append {r0 : CodeRow} {l l' m m' : List CodeRow} (hl : r0 ∈ l → ∃ r ∈ m, r.instr = r0.instr)
    (hl' : r0 ∈ l' → ∃ r ∈ m', r.instr = r0.instr) (h : r0 ∈ l ++ l') : ∃ r ∈ m ++ m', r.instr = r0.instr := by
  rcases List.mem_append.mp h with h | h
  · exact (hl h).imp fun r hr => ⟨List.mem_append_left _ hr.1, hr.2⟩
  · exact (hl' h).imp fun r hr => ⟨List.mem_append_right _ hr.1, hr.2⟩

/-- A code set has a row for each of its default rows. -/
theorem G3Table.exists_row {tbl : G3Table} (h : tbl.wf = true) {c : Color} {r0 : CodeRow} (h0 : r0 ∈ defaultRows c) :
    ∃ r ∈ tbl.rows c, r.instr = r0.instr := by
  obtain ⟨hwt, hwm, hbt, hbm, hxm⟩ := G3Table.wf_lengths h
  cases c
  · exact exists_row_append (exists_mem_withCodes hwt)
      (exists_row_append (exists_mem_withCodes hwm) (exists_mem_withCodes hxm)) h0
  · exact exists_row_append (exists_mem_withCodes hbt)
      (exists_row_append (exists_mem_withCodes hbm) (exists_mem_withCodes hxm)) h0

set_option maxRecDepth 20000 in
/-- The context of a code instruction is a colour whose set has it. -/
theorem kindRows_context : ∀ r ∈ kindRows,
    r.instr.context = .g3 .white ∧ r ∈ defaultRows .white ∨ r.instr.context = .g3 .black ∧ r ∈ defaultRows .black := by
  decide

/-- A code instruction is decoded from its bits at its context's colour. -/
theorem decode_encode_code {tbl : G3Table} (h : tbl.wf = true) {i : Instr} (hi : i ∈ kindRows.map CodeRow.instr)
    (he : encode tbl i = .code (encodeCode tbl i)) : decode tbl i.context (encode tbl i) = .ok i := by
  obtain ⟨r0, h0, rfl⟩ := List.mem_map.mp hi
  obtain ⟨c, hc, hr0⟩ : ∃ c, r0.instr.context = .g3 c ∧ r0 ∈ defaultRows c :=
    (kindRows_context r0 h0).elim (fun hw => ⟨_, hw⟩) (fun hb => ⟨_, hb⟩)
  obtain ⟨r, hr, hri⟩ := G3Table.exists_row h hr0
  have hbits := decodeCode_row h hr []
  rw [List.append_nil, ← encodeCode_row hr, hri] at hbits
  rw [he, hc, decode, hbits]
  rfl

/-! ### The other encodings -/

/-- A command word is decoded by its fields (R111). -/
theorem decode_commandWord (tbl : G3Table) (op : BitVec 4) (bpp : BitVec 3) (f : CmdFlags) :
    decode tbl .command (.command (commandWord op bpp f)) = .ok (commandOf op bpp f) :=
  Machine.decodeCommand_packCtrl op bpp f

theorem decode_legalCommand (tbl : G3Table) (op : Operation) (d : Depth) (f : CmdFlags) :
    decode tbl .command (.command (commandWord op.code d.code f)) = .ok (legalCommand op d f) := by
  rw [decode_commandWord, commandOf_code]

/-- A legal OP with a reserved BPP gives the command of that BPP (R126). -/
theorem decode_reservedBpp (tbl : G3Table) (op : Operation) {bpp : BitVec 3} (h : Depth.ofCode bpp = none) (f : CmdFlags) :
    decode tbl .command (.command (commandWord op.code bpp f)) = .ok (reservedBppCommand op bpp f) := by
  rw [decode_commandWord]
  simp [commandOf, Machine.Operation.ofCode_code, h]

/-- An RLE unit alone is a stream of it and no more. -/
theorem decode_encode_unit {tbl : G3Table} {v : Rle} {i : Instr} {bs : List Byte} (hw : i.wellFormed = true)
    (hc : i.context = .rle v) (he : encode tbl i = .bytes bs) : decode tbl i.context (encode tbl i) = .ok i := by
  have hu := unitInStream tbl v i [] hw hc
  rw [he, Words.toBytes, List.append_nil] at hu
  rw [hc, he, decode, hu]
  rfl

theorem decodeEmit_abs (v : Rle) {n : Byte} (hn : 3 ≤ n.toNat) (t : List Byte) :
    decodeEmit v (0 :: n :: t) = decodeEmitAbs v n t := by
  obtain ⟨h0, h1, h2⟩ := absHead_ne hn
  unfold decodeEmit
  dsimp only
  rw [if_neg (by decide), if_neg (by decide), if_neg (by decide), if_neg h0, if_neg h1, if_neg h2]

theorem decodeEmit_absBytes {v : Rle} {n : Byte} {data : List Byte} (h : absWellFormed v n data = true) :
    decodeEmit v (absBytes n data) = .ok (.encAbs n data, []) := by
  obtain ⟨hn, hd⟩ := (absWellFormed_iff v n data).mp h
  obtain ⟨hle, htake, hdrop⟩ := absTail_stream hd []
  rw [List.append_nil] at hle htake hdrop
  calc decodeEmit v (absBytes n data)
      = decodeEmitAbs v n (data ++ padBytes data.length) := decodeEmit_abs v hn _
    _ = .ok (.encAbs n data, []) := by rw [decodeEmitAbs_eq, if_neg (not_lt.mpr hle), htake, hdrop]

/-- An emitted absolute run has 3 pixels or more, so that it is RLE8's exactly when it has a byte for each (R287). -/
theorem decode_encode_encAbs {tbl : G3Table} {n : Byte} {data : List Byte} (hw : (Instr.encAbs n data).wellFormed = true) :
    decode tbl (Instr.encAbs n data).context (.bytes (absBytes n data)) = .ok (.encAbs n data) := by
  have h8 : absWellFormed .rle8 n data = true ↔ 3 ≤ n.toNat ∧ data.length = n.toNat := absWellFormed_iff .rle8 n data
  have h4 := absWellFormed_iff .rle4 n data
  simp only [Instr.wellFormed, Bool.or_eq_true] at hw
  rw [Instr.context]
  split
  · have h : absWellFormed .rle8 n data = true := by tauto
    rw [decode, decodeEmit_absBytes h]
    rfl
  · have h : absWellFormed .rle4 n data = true := by tauto
    rw [decode, decodeEmit_absBytes h]
    rfl

theorem decodeEmit_run (v : Rle) {c : Byte} (hc : 3 ≤ c.toNat) (d : Byte) (t : List Byte) :
    decodeEmit v (c :: d :: t) = .ok (.encRun c d, t) := if_pos hc

/-- Settles O1: by the kind of the instruction; the constructors that are not named are the run codes of G3_TABLE. -/
theorem decodeOfEncode : Obligations.DecodeOfEncode := by
  intro tbl i htbl hw
  cases i with
  | unpack1 f => exact decode_legalCommand tbl .unpack .d1 f
  | unpack4 f => exact decode_legalCommand tbl .unpack .d4 f
  | unpack8 f => exact decode_legalCommand tbl .unpack .d8 f
  | unpack24 f => exact decode_legalCommand tbl .unpack .d24 f
  | unpack32 f => exact decode_legalCommand tbl .unpack .d32 f
  | decRle8 d f => exact decode_legalCommand tbl .decRle8 d f
  | decRle4 d f => exact decode_legalCommand tbl .decRle4 d f
  | decHuff d f => exact decode_legalCommand tbl .decHuff d f
  | decRle24 d f => exact decode_legalCommand tbl .decRle24 d f
  | encRle8 d f => exact decode_legalCommand tbl .encRle8 d f
  | encRle4 d f => exact decode_legalCommand tbl .encRle4 d f
  | reservedOp5 b f | reservedOp6 b f | reservedOp7 b f | reservedOp8 b f | reservedOpB b f | reservedOpC b f
  | reservedOpD b f | reservedOpE b f | reservedOpF b f => exact decode_commandWord tbl _ b f
  | reservedBpp5 op f | reservedBpp6 op f | reservedBpp7 op f => exact decode_reservedBpp tbl op rfl f
  | rle8Run | rle8Eol | rle8Eob | rle8Delta | rle8Abs | rle4Run | rle4Eol | rle4Eob | rle4Delta | rle4Abs | rle24Run
  | rle24Eol | rle24Eob | rle24Delta | rle24Abs => exact decode_encode_unit hw rfl rfl
  | encRun c v =>
    exact congrArg (Except.map Prod.fst) (decodeEmit_run .rle8 (by simpa [Instr.wellFormed] using hw) v [])
  | encAbs n data => exact decode_encode_encAbs hw
  | encShort c v w =>
    obtain rfl | ⟨rfl, rfl⟩ : c = 1 ∨ c = 2 ∧ w = none := by simpa [Instr.wellFormed] using hw
    · cases w <;> rfl
    · rfl
  | encEol | encEob => rfl
  | eol fill => exact congrArg (Except.map Prod.fst) (decodeCode_eol htbl .white fill [])
  | pix1 | pix8 | pix24 | pix32 => rfl
  | pix4 h l =>
    have hp : decodePixel .d4 [nibbles h l] = .ok (.pix4 h l, []) := by rw [decodePixel, nibbles_high, nibbles_low]
    exact congrArg (Except.map Prod.fst) hp
  | _ => exact decode_encode_code htbl (by decide) rfl

/-- Settles O8: each of the words is decoded by evaluation. -/
theorem wordsWrittenOut : Obligations.WordsWrittenOut :=
  ⟨rfl, rfl, rfl, rfl, rfl, rfl, rfl, rfl, rfl, rfl, rfl⟩

end Sys2Proof
end

section
/-!
PROOF. The first step of a legal command and the zero-fill (spec/30_encoding.md R114, spec/60_exceptions.md R403): a legal
set-up passes the START checks, the hidden state is initialised, and a decoder's fill writes one byte a step (log 4).
-/

namespace Sys2Proof.Machine

/-! ### A legal set-up passes the START checks (R403) -/

/-- Regions without a common byte do not overlap (R89). -/
theorem overlaps_eq_false {base len base' len' : Nat} (h : ¬ shareByte base len base' len') :
    overlaps base len base' len' = false := by
  rw [Bool.eq_false_iff]
  intro ho
  simp only [overlaps, Bool.and_eq_true, decide_eq_true_eq] at ho
  exact h ⟨max base base', by omega, by omega⟩

theorem legalDim_iff (v : Word) : legalDim v = true ↔ 1 ≤ v.toNat ∧ v.toNat ≤ 2 ^ 31 - 1 := by
  simp only [legalDim, Bool.and_eq_true, decide_eq_true_eq]
  rfl

/-- Checks 3 to 9 pass. -/
theorem configError_of_legal {op : Operation} {d : Depth} {f : CmdFlags} {g : Cfg} (h : SetupLegal op d f g)
    (hin : InputCovers op d g) : configError op d f g = none := by
  obtain ⟨hd, hw, hh, hpal, hinFits, houtFits, hpalFits, hinOut, hpalOut, hout⟩ := h
  rw [configError, firstFailing_eq_none]
  simp only [configChecks, List.forall_mem_cons, List.not_mem_nil, false_imp_iff, implies_true, and_true,
    Bool.or_eq_false_iff, Bool.and_eq_false_imp, decide_eq_false_iff_not, Bool.not_eq_false', not_lt, Bool.or_eq_true,
    beq_iff_eq, bne_eq_false_iff_eq, or_assoc]
  refine ⟨?_, ⟨(legalDim_iff _).mpr hw, (legalDim_iff _).mpr hh⟩, hpal, ⟨⟨hinFits, houtFits⟩, hpalFits⟩,
    ⟨overlaps_eq_false hinOut, fun hu => overlaps_eq_false (hpalOut hu)⟩, hout, hin⟩
  cases ho : op.depth? with
  | none => rfl
  | some b => simp [hd b ho]

/-! ### The first step (R114) -/

/-- The whole effect of a legal command's first step when its checks pass. -/
theorem exec_legalCommand_enters {s : State} (hp : s.eng.phase = .start) {op : Operation} {d : Depth} {f : CmdFlags}
    (hc : configError op d f s.cfg = none) : exec (legalCommand op d f) s = .next (s.enterOperation op d) := by
  rw [exec_legalCommand_start hp, State.firstStep_enters hc]

/-- The last row of an image, as the unpacker's first file row (R330). -/
theorem ofNat_pred_height {h : Word} (hpos : 1 ≤ h.toNat) : BitVec.ofNat 32 (h.toNat - 1) = h - 1 := by
  bv_omega

/-- Settles O14: the checks pass, and each operation is entered as `enterOperation` says. -/
theorem commandEnters : Obligations.CommandEnters := by
  intro op d f s hp hl hin
  dsimp only
  rw [exec_legalCommand_enters hp (configError_of_legal hl hin)]
  have hfill : (0 < min s.cfg.outLen.toNat (stride d s.cfg.width.toNat * s.cfg.height.toNat)) ↔
      decide (0 < fillLength d s.cfg) = true := by
    rw [decide_eq_true_eq, fillLength]
  simp only [hfill]
  cases op with
  | decRle8 | decRle4 | decRle24 | decHuff => rfl
  | encRle8 | encRle4 => rfl
  | unpack =>
    rw [← ofNat_pred_height hl.2.2.1.1]
    rfl

/-! ### The zero-fill, step by step (log 4) -/

/-- A run of one step more. -/
theorem run_succ {M : Host.Core} {k : Nat} {s t : M.State} (h : M.run k s = .next t) : M.run (k + 1) s = M.step t := by
  induction k generalizing s with
  | zero =>
    cases h
    unfold Host.Core.run
    split <;> simp_all [Host.Core.run]
  | succ k ih =>
    unfold Host.Core.run at h ⊢
    split at h
    · exact ih h
    · cases h
    · cases h

/-- The state in which a decoder at depth d has k output bytes filled. -/
def State.filledTo (s : State) (op : Operation) (d : Depth) (k : Nat) : State :=
  ((s.initialise op).outWriteList 0 (List.replicate k 0)).withPhase
    (if k < fillLength d s.cfg then .fill (.ofNat 32 k) else .body)

@[simp] theorem State.filledTo_ctrl (s : State) (op : Operation) (d : Depth) (k : Nat) :
    (s.filledTo op d k).ctrl = s.ctrl := by
  simp [State.filledTo]

@[simp] theorem State.filledTo_status (s : State) (op : Operation) (d : Depth) (k : Nat) :
    (s.filledTo op d k).status = s.status := by
  simp [State.filledTo]

@[simp] theorem State.filledTo_cfg (s : State) (op : Operation) (d : Depth) (k : Nat) :
    (s.filledTo op d k).cfg = s.cfg := by
  simp [State.filledTo]

@[simp] theorem State.filledTo_plat (s : State) (op : Operation) (d : Depth) (k : Nat) :
    (s.filledTo op d k).plat = s.plat := by
  simp [State.filledTo]

theorem State.filledTo_eng (s : State) (op : Operation) (d : Depth) (k : Nat) :
    (s.filledTo op d k).eng = { (s.initialise op).eng with
      phase := if k < fillLength d s.cfg then .fill (.ofNat 32 k) else .body } := by
  simp [State.filledTo]

theorem State.filledTo_pos (s : State) {op : Operation} (hop : Operation.isDecoder op = true) (d : Depth) (k : Nat) :
    (s.filledTo op d k).pos = s.pos := by
  simp [State.filledTo, State.initialise_pos_of_decoder s hop]

/-- The first k bytes of OUT are 0 and every other byte is as before. -/
theorem State.holdsOut_filledTo (s : State) (op : Operation) (d : Depth) (k : Nat) :
    s.holdsOut (s.filledTo op d k) 0 (List.replicate k 0) := by
  intro a
  have hm : (s.initialise op).memByte a = s.memByte a := State.memByte_congr (s.initialise_mem op) a
  rw [State.filledTo, State.memByte_congr (State.withPhase_mem _ _), State.memByte_outWriteList, State.initialise_cfg, hm]

theorem State.enterOperation_decoder (s : State) {op : Operation} (hop : Operation.isDecoder op = true) (d : Depth) :
    s.enterOperation op d = s.filledTo op d 0 := by
  simp [State.enterOperation, State.filledTo, State.outWriteList, hop]

/-- One byte more is filled by a write of that byte. -/
theorem State.filledTo_succ (s : State) (op : Operation) (d : Depth) (k : Nat) :
    s.filledTo op d (k + 1) = ((s.filledTo op d k).outWrite k 0).withPhase
      (if k + 1 < fillLength d s.cfg then .fill (.ofNat 32 k + 1) else .body) := by
  have hk : BitVec.ofNat 32 (k + 1) = BitVec.ofNat 32 k + 1 := BitVec.ofNat_add k 1
  rw [State.filledTo, List.replicate_succ', State.outWriteList_append, List.length_replicate, Nat.zero_add, hk]
  rfl

section
variable {s : State} {op : Operation} {d : Depth}

/-- The first step of a calm decoder whose checks pass. -/
theorem step_start_decoder (hcalm : s.calm) (hp : s.eng.phase = .start) (hop : Operation.isDecoder op = true)
    (ho : s.ctrl.op = op.code) (hd : s.ctrl.bpp = d.code) (hc : configError op d s.ctrl.flags s.cfg = none) :
    step s = .next (s.filledTo op d 0) := by
  obtain ⟨hr, hi, hraces⟩ := hcalm
  rw [step_no_inputs hi, engineStep_start hr hp, State.drawn_of_no_races hraces,
    interpretStep_run (State.fetch_start hp), ho, hd, commandOf_code, exec_legalCommand_enters hp hc,
    State.enterOperation_decoder s hop]

/-- Each step of the fill writes the next byte. -/
theorem step_filledTo (hcalm : s.calm) (hop : Operation.isDecoder op = true) (ho : s.ctrl.op = op.code)
    (hd : s.ctrl.bpp = d.code) (hc : configError op d s.ctrl.flags s.cfg = none) {k : Nat}
    (hk : k < fillLength d s.cfg) : step (s.filledTo op d k) = .next (s.filledTo op d (k + 1)) := by
  obtain ⟨hr, hi, hraces⟩ := hcalm
  have hphase : (s.filledTo op d k).eng.phase = .fill (.ofNat 32 k) := by rw [State.filledTo_eng, if_pos hk]
  have hto : (BitVec.ofNat 32 k).toNat = k :=
    toNat_ofNat_of_lt ((hk.trans_le (fillLength_le d s.cfg)).trans s.cfg.outLen.isLt)
  rw [step_no_inputs (by simpa using hi), engineStep_fill (by simpa using hr) hphase,
    State.drawn_of_no_races (by simpa using hraces),
    zeroFillStep_eq (op := op) (d := d) (by simp [ho]) (by simp [hd]) hop (by simpa using hc) (by simpa [hto] using hk),
    hto, State.filledTo_cfg, State.filledTo_succ]

/-- After its first step and k steps of the fill a decoder has k bytes filled. -/
theorem run_filledTo (hcalm : s.calm) (hp : s.eng.phase = .start) (hop : Operation.isDecoder op = true)
    (ho : s.ctrl.op = op.code) (hd : s.ctrl.bpp = d.code) (hc : configError op d s.ctrl.flags s.cfg = none) {k : Nat}
    (hk : k ≤ fillLength d s.cfg) : Host.Core.run Sys2Proof.core (k + 1) s = .next (s.filledTo op d k) := by
  induction k with
  | zero => exact (run_succ (M := Sys2Proof.core) rfl).trans (step_start_decoder hcalm hp hop ho hd hc)
  | succ k ih =>
    exact (run_succ (M := Sys2Proof.core) (ih (by omega))).trans (step_filledTo hcalm hop ho hd hc hk)

end

/-- The hidden state that a decoder begins with (R150, R200). -/
theorem State.initialise_decoder (s : State) {op : Operation} (hop : Operation.isDecoder op = true) :
    (s.initialise op).eng.x = 0 ∧ (s.initialise op).eng.y = 0 ∧
      (op = .decHuff → (s.initialise op).eng.q = 0 ∧ (s.initialise op).eng.color = .white ∧
        (s.initialise op).eng.started = false ∧ (s.initialise op).eng.sawCode = false ∧
        (s.initialise op).eng.eolRun = 0 ∧ (s.initialise op).eng.pend = 0) ∧
      (op ≠ .decHuff → (s.initialise op).eng.p = 0) := by
  cases op with
  | decHuff => exact ⟨rfl, rfl, fun _ => ⟨rfl, rfl, rfl, rfl, rfl, rfl⟩, fun h => absurd rfl h⟩
  | decRle8 | decRle4 | decRle24 => exact ⟨rfl, rfl, nofun, fun _ => rfl⟩
  | unpack | encRle8 | encRle4 => cases hop

/-- Settles O16: by induction on the bytes filled, the state after the first step and k steps of the fill is
`filledTo … k`, whose fields are the start's but for the engine's. -/
theorem zeroFillWritesOut : Obligations.ZeroFillWritesOut := by
  intro op d s hcalm hp hops ho hd hl n filled
  have hop : Operation.isDecoder op = true := by
    rcases hops with rfl | rfl | rfl | rfl <;> rfl
  have hin : InputCovers op d s.cfg := by
    rintro (rfl | rfl | rfl) <;> cases hop
  have hc := configError_of_legal hl hin
  have hfilled (k : Nat) : filled k (s.filledTo op d k) := by
    obtain ⟨hx, hy, hhuff, hrle⟩ := s.initialise_decoder hop
    simp only [filled, State.filledTo_eng]
    exact ⟨hx, hy, hhuff, hrle, s.filledTo_ctrl op d k, s.filledTo_status op d k, s.filledTo_cfg op d k,
      s.filledTo_pos hop d k, s.filledTo_plat op d k, s.holdsOut_filledTo op d k⟩
  refine ⟨fun k hk => ⟨s.filledTo op d k, run_filledTo hcalm hp hop ho hd hc (Nat.le_of_lt hk), ?_, hfilled k⟩,
    s.filledTo op d n, run_filledTo hcalm hp hop ho hd hc (Nat.le_refl n), ?_, hfilled n⟩
  · rw [State.filledTo_eng]
    exact if_pos hk
  · rw [State.filledTo_eng]
    exact if_neg (Nat.lt_irrefl n)

end Sys2Proof.Machine
end

section
/-!
PROOF. The units of an RLE stream (spec/40_rle_decode.md R151 to R168): what the pixels of a unit leave in memory at
each depth, and every outcome of a unit while the hazard rule is kept, in the order of R168.
-/

namespace Sys2Proof.Machine

/-! ### What a unit of pixels means -/

theorem exec_rle8Run (c v : Byte) (s : State) :
    exec (.rle8Run c v) s =
      rlePixels .rle8 2 c.toNat
        (fun s => putPixels State.put8 s s.eng.x.toNat s.eng.y.toNat (List.replicate c.toNat v)) s := rfl

theorem exec_rle8Abs (n : Byte) (data : List Byte) (s : State) :
    exec (.rle8Abs n data) s =
      rlePixels .rle8 (absLength .rle8 n.toNat) n.toNat
        (fun s => putPixels State.put8 s s.eng.x.toNat s.eng.y.toNat (data.take n.toNat)) s := rfl

theorem exec_rle4Run (c : Byte) (h l : Nibble) (s : State) :
    exec (.rle4Run c h l) s =
      rlePixels .rle4 2 c.toNat
        (fun s => putPixels State.put4 s s.eng.x.toNat s.eng.y.toNat (runPixels4 c.toNat h l)) s := rfl

theorem exec_rle4Abs (n : Byte) (data : List Byte) (s : State) :
    exec (.rle4Abs n data) s =
      rlePixels .rle4 (absLength .rle4 n.toNat) n.toNat
        (fun s => putPixels State.put4 s s.eng.x.toNat s.eng.y.toNat (absPixels4 n.toNat data)) s := rfl

theorem exec_rle24Run (c b0 b1 b2 : Byte) (s : State) :
    exec (.rle24Run c b0 b1 b2) s =
      rlePixels .rle24 4 c.toNat
        (fun s => putPixels State.put24 s s.eng.x.toNat s.eng.y.toNat (List.replicate c.toNat (b0, b1, b2))) s := rfl

theorem exec_rle24Abs (n : Byte) (data : List Byte) (s : State) :
    exec (.rle24Abs n data) s =
      rlePixels .rle24 (absLength .rle24 n.toNat) n.toNat
        (fun s => putPixels State.put24 s s.eng.x.toNat s.eng.y.toNat (absPixels24 n.toNat data)) s := rfl

@[simp] theorem runPixels4_length (n : Nat) (h l : Nibble) : (runPixels4 n h l).length = n := by
  simp [runPixels4]

@[simp] theorem absPixels4_length (n : Nat) (data : List Byte) : (absPixels4 n data).length = n := by
  simp [absPixels4]

@[simp] theorem absPixels24_length (n : Nat) (data : List Byte) : (absPixels24 n data).length = n := by
  simp [absPixels24]

/-! ### The pixels of a unit as bytes (R161, R162, R165, R166) -/

/-- The pixels of an RLE8 unit: one byte each, from the cursor's place in its row. -/
theorem memByte_putPixels_put8 (vs : List Byte) (s : State) (x y a : Nat) :
    (putPixels State.put8 s x y vs).memByte a =
      if s.outRow .d8 y + x ≤ a ∧ a < s.outRow .d8 y + x + vs.length then vs.getD (a - (s.outRow .d8 y + x)) 0
      else s.memByte a := by
  rw [putPixels_put8, State.memByte_outWriteList, State.outRow, ← Nat.add_assoc]

/-- The pixels of an RLE24 unit: three bytes each, from the cursor's place in its row. -/
theorem memByte_putPixels_put24 (vs : List (Byte × Byte × Byte)) (s : State) (x y a : Nat) :
    (putPixels State.put24 s x y vs).memByte a =
      if s.outRow .d24 y + 3 * x ≤ a ∧ a < s.outRow .d24 y + 3 * x + 3 * vs.length then
        (pixelBytes24 vs).getD (a - (s.outRow .d24 y + 3 * x)) 0
      else s.memByte a := by
  rw [putPixels_put24, State.memByte_outWriteList, pixelBytes24_length, State.outRow,
    ← Nat.add_assoc]

/-- Every byte of a run of equal RLE24 pixels is the pixel's byte of its place. -/
theorem pixelBytes24_replicate_getD (b0 b1 b2 : Byte) {n k : Nat} (hk : k < 3 * n) :
    (pixelBytes24 (List.replicate n (b0, b1, b2))).getD k 0 = [b0, b1, b2].getD (k % 3) 0 := by
  induction n generalizing k with
  | zero => omega
  | succ n ih =>
    have hcons : pixelBytes24 (List.replicate (n + 1) (b0, b1, b2)) =
        b0 :: b1 :: b2 :: pixelBytes24 (List.replicate n (b0, b1, b2)) := rfl
    rw [hcons]
    match k with
    | 0 | 1 | 2 => rfl
    | k + 3 =>
      rw [Nat.add_mod_right]
      exact ih (by omega)

theorem absPixels24_cons (n : Nat) (b0 b1 b2 : Byte) (data : List Byte) :
    absPixels24 (n + 1) (b0 :: b1 :: b2 :: data) = (b0, b1, b2) :: absPixels24 n data := by
  rw [absPixels24, List.range_succ_eq_map, List.map_cons, List.map_map]
  rfl

/-- The pixels of an RLE24 absolute run hold its data bytes in stream order. -/
theorem pixelBytes24_absPixels24 {n : Nat} {data : List Byte} (h : data.length = 3 * n) :
    pixelBytes24 (absPixels24 n data) = data := by
  induction n generalizing data with
  | zero => exact (List.length_eq_zero_iff.mp h).symm
  | succ n ih =>
    match data, h with
    | b0 :: b1 :: b2 :: data, h =>
      simp only [List.length_cons] at h
      have htail := ih (data := data) (by omega)
      rw [absPixels24_cons]
      exact congrArg (b0 :: b1 :: b2 :: ·) htail
    | [], h | [_], h | [_, _], h =>
      simp only [List.length_cons, List.length_nil] at h
      omega

/-! ### The pixels of a unit as nibbles (R163, R164) -/

/-- One 4-bit pixel is stored at its place, and every other pixel of its row stays. -/
theorem State.nibbleAt_put4 {s : State} (h : s.plat.races = []) (x y x' : Nat) (v : Nibble) :
    (s.put4 x y v).nibbleAt (s.outRow .d4 y) x' = if x' = x then v else s.nibbleAt (s.outRow .d4 y) x' := by
  have hbyte : (s.put4 x y v).memByte (s.outRow .d4 y + x' / 2) =
      if x' / 2 = x / 2 then replaceNibble (s.memByte (s.outRow .d4 y + x / 2)) x v
      else s.memByte (s.outRow .d4 y + x' / 2) := by
    rw [State.put4, State.memByte_outWrite, State.outByte, State.engRead_of_no_races h, State.outRow,
      ← Nat.add_assoc]
    simp only [Nat.add_left_cancel_iff]
  rw [State.nibbleAt, hbyte, State.nibbleAt]
  by_cases hpair : x' / 2 = x / 2
  · rw [if_pos hpair, hpair]
    obtain hx | hx := Nat.mod_two_eq_zero_or_one x
    · obtain ⟨hnew, hkept⟩ := replaceNibble_high (s.memByte (s.outRow .d4 y + x / 2)) hx v
      have hsame : x' = x ↔ x' % 2 = 0 := by omega
      simp only [hnew, hkept, hsame]
      split_ifs <;> rfl
    · obtain ⟨hnew, hkept⟩ := replaceNibble_low (s.memByte (s.outRow .d4 y + x / 2)) hx v
      have hsame : x' = x ↔ ¬ x' % 2 = 0 := by omega
      simp only [hnew, hkept, hsame]
      split_ifs <;> rfl
  · rw [if_neg hpair, if_neg fun hx : x' = x => hpair (by rw [hx])]

/-- The pixels of an RLE4 unit, each at its place from x on; every other pixel of the row stays. -/
theorem nibbleAt_putPixels_put4 (vs : List Nibble) {s : State} (h : s.plat.races = []) (x y x' : Nat) :
    (putPixels State.put4 s x y vs).nibbleAt (s.outRow .d4 y) x' =
      if x ≤ x' ∧ x' < x + vs.length then vs.getD (x' - x) 0 else s.nibbleAt (s.outRow .d4 y) x' := by
  induction vs generalizing s x with
  | nil =>
    rw [if_neg (by simp)]
    rfl
  | cons v vs ih =>
    have hrest := ih (s := s.put4 x y v) h (x + 1)
    rw [show (s.put4 x y v).outRow .d4 y = s.outRow .d4 y from rfl, State.nibbleAt_put4 h] at hrest
    rw [putPixels, hrest, List.length_cons]
    obtain hlt | rfl | hgt := Nat.lt_trichotomy x' x
    · rw [if_neg (by omega), if_neg (by omega), if_neg (by omega)]
    · rw [if_neg (by omega), if_pos rfl, if_pos (by omega), Nat.sub_self]
      rfl
    · obtain ⟨k, rfl⟩ : ∃ k, x' = x + (k + 1) := ⟨x' - x - 1, by omega⟩
      rw [Nat.add_sub_cancel_left, List.getD_cons_succ, show x + (k + 1) - (x + 1) = k by omega,
        if_neg (show x + (k + 1) ≠ x by omega)]
      exact if_congr (by omega) rfl rfl

/-- The pixels of an RLE4 unit leave every byte before their row alone. -/
theorem memByte_putPixels_put4_below (vs : List Nibble) (s : State) (x : Nat) {y a : Nat} (ha : a < s.outRow .d4 y) :
    (putPixels State.put4 s x y vs).memByte a = s.memByte a := by
  rw [State.outRow] at ha
  exact memByte_putPixels_put4 vs s x y a fun i _ => by omega

/-- Entry k of a list of n values by index. -/
theorem getD_map_range {α : Type} (f : Nat → α) (z : α) {n k : Nat} (hk : k < n) :
    ((List.range n).map f).getD k z = f k := by
  rw [List.getD_eq_getElem _ _ (by simpa using hk), List.getElem_map, List.getElem_range]

/-! ### The outcomes of a unit (R168) -/

section

variable {v : Rle} {s : State} (hr : s.running (Rle.operation v) (Rle.depth v) = true) (hraces : s.plat.races = [])
include hr hraces

/-- A unit of len bytes is TRUNCATED, or it takes its effect (R151). -/
theorem rleUnit_outcome (len : Nat) (effect : State → State) :
    rleUnit v len effect s =
      if s.cfg.inLen.toNat < s.eng.p.toNat + len then .next (s.ended .truncated) else .next (effect s) := by
  split
  · rw [rleUnit_truncated hr ‹_›, State.raise_of_no_races hraces]
  · exact rleUnit_whole hr (by omega)

/-- The outcomes of a unit whose meaning is `rlePixels`: the errors in their order, or the pixels are written and the
cursor moves on. -/
theorem pixelUnit_of_rlePixels {i : Instr} {len n : Nat} {write : State → State} {written : State → Prop}
    (hexec : exec i s = rlePixels v len n write s)
    (hout : s.lastByte (Rle.depth v) n < s.cfg.outLen.toNat → s.WritesOut (write s)) (hwritten : written (write s)) :
    PixelUnit i s (Rle.depth v) len n written := by
  unfold PixelUnit
  dsimp only
  rw [hexec]
  split
  · rw [rlePixels, rleUnit_truncated hr ‹_›, State.raise_of_no_races hraces]
  · rename_i hlen
    rw [not_lt] at hlen
    obtain ⟨hw, hc⟩ | ⟨hw, hfull, hc⟩ | ⟨hw, hy, hlast, hc⟩ := s.checkWrite_cases (Rle.depth v) n
    · rw [if_pos hw, rlePixels_fails hr hlen hc, State.raise_of_no_races hraces]
    · rw [if_neg (not_lt.mpr hw), if_pos (by exact hfull), rlePixels_fails hr hlen hc, State.raise_of_no_races hraces]
    · have heq := (hout hlast).eq
      rw [if_neg (not_lt.mpr hw), if_neg (by exact not_or.mpr ⟨not_le.mpr hy, not_le.mpr hlast⟩),
        rlePixels_writes hr hlen hc]
      exact ⟨(write s).mem, by rw [heq]; rfl, heq ▸ hwritten⟩

end

/-! ### RLE8 -/

/-- Settles O17: the pixels are consecutive bytes, each the run's value. -/
theorem rle8Run : Obligations.Rle8Run := by
  intro c v s _ hr hraces
  refine pixelUnit_of_rlePixels (v := .rle8) hr hraces (exec_rle8Run c v s) (writesOut_putPixels_put8 (by simp))
    fun a => ?_
  rw [memByte_putPixels_put8, List.length_replicate]
  split
  · exact List.getD_replicate _ (by omega)
  · rfl

/-- Settles O18: the pixels are consecutive bytes, the data bytes. -/
theorem rle8Abs : Obligations.Rle8Abs := by
  intro n data s hwf hr hraces
  obtain ⟨-, hd⟩ := (absWellFormed_iff .rle8 n data).mp hwf
  have htake : data.take n.toNat = data := List.take_of_length_le (Nat.le_of_eq hd)
  refine pixelUnit_of_rlePixels (v := .rle8) hr hraces (exec_rle8Abs n data s) (writesOut_putPixels_put8 (by simp))
    fun a => ?_
  rw [memByte_putPixels_put8, htake, hd]
  rfl

/-! ### RLE4 -/

/-- Settles O19: pixel i of the unit is the run's value of its parity. -/
theorem rle4Run : Obligations.Rle4Run := by
  intro c h l s _ hr hraces
  refine pixelUnit_of_rlePixels (v := .rle4) hr hraces (exec_rle4Run c h l s) (writesOut_putPixels_put4 (by simp))
    ⟨fun a ha => memByte_putPixels_put4_below _ s _ ha, fun x => ?_⟩
  rw [nibbleAt_putPixels_put4 _ hraces, runPixels4_length]
  split
  · exact getD_map_range _ _ (by omega)
  · rfl

/-- Settles O20: pixel i of the unit is a nibble of data byte i div 2. -/
theorem rle4Abs : Obligations.Rle4Abs := by
  intro n data s _ hr hraces dataLen
  refine pixelUnit_of_rlePixels (v := .rle4) hr hraces (exec_rle4Abs n data s) (writesOut_putPixels_put4 (by simp))
    ⟨fun a ha => memByte_putPixels_put4_below _ s _ ha, fun x => ?_⟩
  rw [nibbleAt_putPixels_put4 _ hraces, absPixels4_length]
  split
  · exact getD_map_range _ _ (by omega)
  · rfl

/-! ### RLE24 -/

/-- Settles O21: the pixels are consecutive bytes, the run's three in turn. -/
theorem rle24Run : Obligations.Rle24Run := by
  intro c b0 b1 b2 s _ hr hraces
  refine pixelUnit_of_rlePixels (v := .rle24) hr hraces (exec_rle24Run c b0 b1 b2 s) (writesOut_putPixels_put24 (by simp))
    fun a => ?_
  rw [memByte_putPixels_put24, List.length_replicate]
  split
  · exact pixelBytes24_replicate_getD b0 b1 b2 (by omega)
  · rfl

/-- Settles O22: the pixels are consecutive bytes, the data bytes. -/
theorem rle24Abs : Obligations.Rle24Abs := by
  intro n data s hwf hr hraces
  obtain ⟨-, hd⟩ := (absWellFormed_iff .rle24 n data).mp hwf
  have hunit : absLength .rle24 n.toNat = 2 + 3 * n.toNat + n.toNat % 2 := by
    simp only [absLength, Rle.dataBytes]
    omega
  rw [← hunit]
  refine pixelUnit_of_rlePixels (v := .rle24) hr hraces (exec_rle24Abs n data s) (writesOut_putPixels_put24 (by simp))
    fun a => ?_
  rw [memByte_putPixels_put24, absPixels24_length, pixelBytes24_absPixels24 hd]

/-! ### The escapes (R155, R157, R158, R160) -/

theorem exec_eol (v : Rle) (s : State) : exec v.eol s = rleEol v s := by
  cases v <;> rfl

theorem exec_eob (v : Rle) (s : State) : exec v.eob s = rleEob v s := by
  cases v <;> rfl

theorem exec_delta (v : Rle) (dx dy : Byte) (s : State) : exec (v.delta dx dy) s = rleDelta v dx dy s := by
  cases v <;> rfl

/-- Settles O23: each escape is a unit whose effect moves the cursor, or ends the operation behind it. -/
theorem rleEscapes : Obligations.RleEscapes := by
  intro v dx dy s hr hraces p sat
  refine ⟨?_, ?_, ?_⟩
  · rw [exec_eol, rleEol, rleUnit_outcome hr hraces]
    rfl
  · have hp : BitVec.ofNat 32 (s.eng.p.toNat + 2) = s.eng.p + 2 := by bv_omega
    rw [exec_eob, rleEob, rleUnit_outcome hr hraces, hp, State.finish_of_no_races (by exact hraces)]
  · rw [exec_delta, rleDelta, rleUnit_outcome hr hraces]
    rfl

end Sys2Proof.Machine
end

section
/-!
PROOF. The body of an RLE decode, step by step, while nothing is pending and the hazard rule is kept
(spec/40_rle_decode.md R150, R151, R156, R167). A step either goes on, at least two input bytes further
(`State.Advances`), or ends the operation (`State.Stops`); so the input left bounds the steps. Beside it, how a
Group-3 stream can give no code (spec/41_g3_decode.md R202, R212).
-/

namespace Sys2Proof.Machine

/-! ### A calm turn of the engine -/

/-- Where nothing is pending and nothing raced, a step in the body of an operation interprets what the state fetches. -/
theorem step_calm_body {s : State} (hcalm : s.calm) (hp : s.eng.phase = .body) : step s = interpretStep s := by
  obtain ⟨hr, hi, hraces⟩ := hcalm
  have h := step_turn_interprets (s := s) (t := s.drawn) ⟨hr, .inl ⟨hi, rfl⟩⟩ (.inr hp)
  rwa [State.drawn_of_no_races hraces] at h

theorem step_of_fetch_failed {s : State} (hcalm : s.calm) (hp : s.eng.phase = .body) {c : ErrCode}
    (hf : s.fetch = .failed c) : step s = .next (s.ended c) := by
  rw [step_calm_body hcalm hp, interpretStep, hf, ← State.raise_of_no_races hcalm.2.2]

/-! ### The fetch of an RLE decode -/

theorem State.fetchUnit_at_end {s : State} (v : Rle) (h : s.eng.p.toNat = s.cfg.inLen.toNat) :
    s.fetchUnit v = .endOfInput :=
  if_pos (by omega)

/-- ReadCode finds no code in two ways only: the stream runs out, or no code goes on. -/
theorem readCode_error {rows : List CodeRow} {bits : List Bool} {len val : Nat} {e : Reject}
    (h : readCode rows len val bits = .error e) : e = .truncated ∨ e = .badCode := by
  induction bits generalizing len val with
  | nil =>
    cases h
    exact .inl rfl
  | cons b bits ih =>
    unfold readCode at h
    dsimp only at h
    split at h
    · cases h
    · split at h
      · cases h
      · split at h
        · exact ih h
        · cases h
          exact .inr rfl

/-- Settles O10: a fetch without an instruction fails with the code of the reader's reason. -/
theorem stepWithoutInstruction : Obligations.StepWithoutInstruction := by
  intro s hcalm
  refine ⟨fun v hr hlt hd => ?_, fun e hr hd => ?_⟩
  · refine step_of_fetch_failed hcalm (State.running_phase hr) ?_
    rw [State.fetch_rle hr, State.fetchUnit, if_neg (by omega), hd]
    rfl
  · have hstep : step s = .next (s.ended (rejectCode e)) := by
      refine step_of_fetch_failed hcalm (State.running_phase hr) ?_
      rw [State.fetch_huff hr, State.fetchCode, hd]
    obtain rfl | rfl := readCode_error hd
    · exact .inl ⟨rfl, hstep⟩
    · exact .inr ⟨rfl, hstep⟩

/-- Settles O11: the fetch finds the end of the input, which is success with EOBI. -/
theorem endOfInputAtBoundary : Obligations.EndOfInputAtBoundary := by
  intro v s hcalm hr hp
  have hphase := State.running_phase hr
  refine ⟨?_, fun hinv => ?_⟩
  · rw [step_calm_body hcalm hphase, interpretStep, State.fetch_rle hr, State.fetchUnit_at_end v hp]
    exact congrArg Host.Outcome.next (State.finish_of_no_races hcalm.2.2)
  · rw [State.status_of_busy hinv (by simp [State.busy, hphase])]
    rfl

/-! ### The relations: the decode goes on, the decode stops -/

/-- From s to t an RLE decode goes on: bytes of OUT may be written, and the cursor moves at least two bytes of input on,
not past its end. -/
def State.Advances (s t : State) : Prop :=
  ∃ w p x y, s.WritesOut w ∧ t = w.moveTo p x y ∧ s.eng.p.toNat + 2 ≤ p ∧ p ≤ s.cfg.inLen.toNat

/-- From s to t the operation ends, with success or an error, and the platform's side is otherwise as it was. -/
def State.Stops (s t : State) : Prop := ∃ u : State, (t = u.finish ∨ ∃ c, t = u.raise c) ∧ u.plat = s.plat

theorem State.stops_raise (s : State) (c : ErrCode) : s.Stops (s.raise c) := ⟨s, .inr ⟨c, rfl⟩, rfl⟩

namespace State.Advances

theorem plat {s t : State} (h : s.Advances t) : t.plat = s.plat := by
  obtain ⟨w, p, x, y, hw, rfl, -⟩ := h
  rw [State.moveTo_plat, hw.eq]

theorem cfg {s t : State} (h : s.Advances t) : t.cfg = s.cfg := by
  obtain ⟨w, p, x, y, hw, rfl, -⟩ := h
  exact hw.cfg

theorem calm {s t : State} (h : s.Advances t) (hc : s.calm) : t.calm := by
  rwa [State.calm, h.plat]

/-- The cursor after the step, as a number. -/
theorem cursor {s t : State} (h : s.Advances t) :
    s.eng.p.toNat + 2 ≤ t.eng.p.toNat ∧ t.eng.p.toNat ≤ s.cfg.inLen.toNat := by
  obtain ⟨w, p, x, y, -, rfl, hlow, hhigh⟩ := h
  rw [State.moveTo_eng, toNat_ofNat_of_lt (hhigh.trans_lt s.cfg.inLen.isLt)]
  exact ⟨hlow, hhigh⟩

theorem running {s t : State} {v : Rle} {d : Depth} (h : s.Advances t) (hr : s.running (Rle.operation v) d = true) :
    t.running (Rle.operation v) d = true := by
  have hp : t.eng.p.toNat ≤ t.cfg.inLen.toNat := h.cfg ▸ h.cursor.2
  have hcursor : t.cursorOk (Rle.operation v) = true := by
    cases v <;> exact decide_eq_true hp
  obtain ⟨w, p, x, y, hw, rfl, -⟩ := h
  exact State.running_of_eq hr (by rw [State.moveTo_ctrl, hw.eq]) hw.cfg (by rw [State.moveTo_eng, hw.eq]) hcursor

end State.Advances

namespace State.Stops

theorem calm {s t : State} (h : s.Stops t) (hc : s.calm) : t.calm := by
  obtain ⟨hreset, hinputs, -⟩ := hc
  obtain ⟨u, hend, hplat⟩ := h
  rw [← hplat] at hreset hinputs
  obtain rfl | ⟨c, rfl⟩ := hend <;> exact ⟨hreset, hinputs, rfl⟩

theorem done {s t : State} (h : s.Stops t) : t.busy = false ∧ t.status.done = true := by
  obtain ⟨u, rfl | ⟨c, rfl⟩, -⟩ := h <;> exact ⟨rfl, rfl⟩

end State.Stops

/-! ### Every unit goes on or stops -/

/-- The forms that the meaning of a unit of a variant can have in state s: pixels, or one of the escapes. -/
inductive UnitForm (v : Rle) (s : State) : Host.Outcome State Fault Refusal → Prop
  | pixels (len n : Nat) (write : State → State) (hlen : 2 ≤ len)
      (hout : s.lastByte (Rle.depth v) n < s.cfg.outLen.toNat → s.WritesOut (write s)) :
      UnitForm v s (rlePixels v len n write s)
  | eol : UnitForm v s (rleEol v s)
  | eob : UnitForm v s (rleEob v s)
  | delta (dx dy : Byte) : UnitForm v s (rleDelta v dx dy s)

theorem two_le_absLength (v : Rle) (n : Nat) : 2 ≤ absLength v n := by
  rw [absLength, Nat.add_assoc]
  exact Nat.le_add_right _ _

/-- An absolute run writes its pixels, after its head. -/
theorem unitForm_abs (v : Rle) (n : Byte) (data : List Byte) (s : State) : UnitForm v s (exec (v.abs n data) s) := by
  have hlen := two_le_absLength v n.toNat
  cases v with
  | rle8 => exact exec_rle8Abs n data s ▸ .pixels _ _ _ hlen (writesOut_putPixels_put8 (by simp))
  | rle4 => exact exec_rle4Abs n data s ▸ .pixels _ _ _ hlen (writesOut_putPixels_put4 (by simp))
  | rle24 => exact exec_rle24Abs n data s ▸ .pixels _ _ _ hlen (writesOut_putPixels_put24 (by simp))

/-- An encoded run writes its pixels. -/
theorem unitForm_of_decodeRun {v : Rle} {c d : Byte} {t rest : List Byte} {i : Instr}
    (h : decodeRun v c d t = .ok (i, rest)) (s : State) : UnitForm v s (exec i s) := by
  unfold decodeRun at h
  split at h <;> cases h
  · rw [exec_rle8Run]
    exact .pixels _ _ _ (by omega) (writesOut_putPixels_put8 (by simp))
  · rw [exec_rle4Run]
    exact .pixels _ _ _ (by omega) (writesOut_putPixels_put4 (by simp))
  · rw [exec_rle24Run]
    exact .pixels _ _ _ (by omega) (writesOut_putPixels_put24 (by simp))

/-- The meaning of every unit that the decoder of a variant reads. -/
theorem unitForm_of_decodeUnit {v : Rle} {bs rest : List Byte} {i : Instr} (h : decodeUnit v bs = .ok (i, rest))
    (s : State) : UnitForm v s (exec i s) := by
  match bs with
  | [] | [_] => cases h
  | c :: d :: t =>
    obtain hc | ⟨rfl, rfl | rfl | rfl | hn⟩ := unitHead_cases c d
    · exact unitForm_of_decodeRun ((decodeUnit_run v hc d t).symm.trans h) s
    · cases h
      exact exec_eol v s ▸ .eol
    · cases h
      exact exec_eob v s ▸ .eob
    · match t with
      | [] | [_] => cases h
      | dx :: dy :: t =>
        cases h
        exact exec_delta v dx dy s ▸ .delta dx dy
    · rw [decodeUnit_abs v hn, decodeAbs_eq] at h
      split at h <;> cases h
      exact unitForm_abs v d _ s

/-- A unit that takes effect goes on, past at least its two head bytes, or ends the operation. -/
theorem UnitForm.advances_or_stops {v : Rle} {s t : State} {o : Host.Outcome State Fault Refusal} (hf : UnitForm v s o)
    (h : o = .next t) : s.Advances t ∨ s.Stops t := by
  cases hf with
  | pixels len n write hlen hout =>
    obtain ⟨-, ⟨c, rfl⟩ | ⟨hl, hc, rfl⟩⟩ := rlePixels_cases h
    · exact .inr (s.stops_raise c)
    · exact .inl ⟨_, _, _, _, hout (State.lastByte_lt_of_checkWrite hc), rfl, by omega, hl⟩
  | eol =>
    obtain ⟨-, ⟨-, rfl⟩ | ⟨hl, rfl⟩⟩ := rleUnit_cases h
    · exact .inr (s.stops_raise _)
    · exact .inl ⟨s, _, _, _, .refl s, rfl, by omega, hl⟩
  | eob =>
    obtain ⟨-, ⟨-, rfl⟩ | ⟨-, rfl⟩⟩ := rleUnit_cases h
    · exact .inr (s.stops_raise _)
    · exact .inr ⟨_, .inl rfl, rfl⟩
  | delta dx dy =>
    obtain ⟨-, ⟨-, rfl⟩ | ⟨hl, rfl⟩⟩ := rleUnit_cases h
    · exact .inr (s.stops_raise _)
    · exact .inl ⟨s, _, _, _, .refl s, rfl, by omega, hl⟩

/-! ### The decode ends (R167) -/

/-- A step of an RLE decode goes on or stops. -/
theorem step_rle {v : Rle} {s : State} (hcalm : s.calm) (hr : s.running (Rle.operation v) (Rle.depth v) = true) :
    ∃ t, step s = .next t ∧ (s.Advances t ∨ s.Stops t) := by
  rw [step_calm_body hcalm (State.running_phase hr)]
  obtain ⟨t, ht⟩ := interpretStep_answers_rle hr
  refine ⟨t, ht, ?_⟩
  obtain ⟨i, hf, hexec⟩ | ⟨-, rfl⟩ | ⟨c, -, rfl⟩ := interpretStep_cases ht
  · rw [State.fetch_rle hr, State.fetchUnit] at hf
    split at hf
    · cases hf
    · split at hf <;> cases hf
      exact (unitForm_of_decodeUnit ‹_› s).advances_or_stops hexec
  · exact .inr ⟨_, .inl rfl, rfl⟩
  · exact .inr (s.stops_raise c)

/-- A run is its first step and the run of the others. -/
theorem run_of_step {M : Host.Core} {s t : M.State} (h : M.step s = .next t) (k : Nat) :
    M.run (k + 1) s = M.run k t := by
  rw [Host.Core.run, h]

/-- A calm idle block stays as it is. -/
theorem run_idle {s : State} (hcalm : s.calm) (hb : s.busy = false) (k : Nat) :
    Host.Core.run Sys2Proof.core k s = .next s := by
  have hstep : step s = .next s := by
    rw [step_no_inputs hcalm.2.1]
    exact engineStep_idle (by simpa [State.busy] using hb)
  induction k with
  | zero => rfl
  | succ k ih => exact (run_of_step (M := Sys2Proof.core) hstep k).trans ih

/-- An RLE decode with at most 2n bytes of input left ends within n + 1 steps. -/
theorem run_rle_ends {v : Rle} {n : Nat} {s : State} (hcalm : s.calm)
    (hr : s.running (Rle.operation v) (Rle.depth v) = true) (hn : s.cfg.inLen.toNat - s.eng.p.toNat ≤ 2 * n) :
    ∃ t : State, Host.Core.run Sys2Proof.core (n + 1) s = .next t ∧ t.busy = false ∧ t.status.done = true := by
  induction n generalizing s with
  | zero =>
    obtain ⟨t, hstep, ha | hs⟩ := step_rle hcalm hr
    · have hcursor := ha.cursor
      omega
    · exact ⟨t, run_of_step (M := Sys2Proof.core) hstep 0, hs.done⟩
  | succ n ih =>
    obtain ⟨t, hstep, ha | hs⟩ := step_rle hcalm hr
    · have hcursor := ha.cursor
      have hleft : t.cfg.inLen.toNat - t.eng.p.toNat ≤ 2 * n := by
        rw [ha.cfg]
        omega
      obtain ⟨u, hrun, hend⟩ := ih (ha.calm hcalm) (ha.running hr) hleft
      exact ⟨u, (run_of_step (M := Sys2Proof.core) hstep _).trans hrun, hend⟩
    · refine ⟨t, ?_, hs.done⟩
      exact (run_of_step (M := Sys2Proof.core) hstep _).trans (run_idle (hs.calm hcalm) hs.done.1 _)

/-- Settles O24: by induction on half the input left, each step taking at least two bytes of it. -/
theorem rleDecodeEnds : Obligations.RleDecodeEnds := by
  intro v s _ hcalm hr
  exact run_rle_ends hcalm hr (by omega)

end Sys2Proof.Machine
end

section
/-!
PROOF. ReadCode is exact (spec/41_g3_decode.md R202; spec/30_encoding.md R123, R124). The bits that ReadCode has taken
and not answered for are a proper beginning of a code (`G3Table.Begins`); from there its answer is the one that R202
asks for (`G3Table.Answers`), and over a table in which no code begins another no two answers fit one stream.
-/

namespace Sys2Proof

/-! ### Numbers as bits (R7) -/

/-- The first m bits of m + n, then the last n. -/
theorem bitsMsb_add (m n v : Nat) : bitsMsb (m + n) v = bitsMsb m (v >>> n) ++ bitsMsb n v := by
  induction m with
  | zero => rw [Nat.zero_add, bitsMsb, List.nil_append]
  | succ m ih =>
    rw [Nat.add_right_comm, bitsMsb, bitsMsb, ih, Nat.testBit_shiftRight, Nat.add_comm n m, List.cons_append]

/-- One bit more. -/
theorem bitsMsb_snoc (n v : Nat) (b : Bool) : bitsMsb (n + 1) (2 * v + b.toNat) = bitsMsb n v ++ [b] := by
  have hshift : (2 * v + b.toNat) >>> 1 = v := by
    have := b.toNat_le
    rw [Nat.shiftRight_one]
    omega
  have hlast : (2 * v + b.toNat).testBit 0 = b := by
    cases b <;> simp
  rw [bitsMsb_add, hshift, bitsMsb, bitsMsb, hlast]

theorem bitsMsb_zero (n : Nat) : bitsMsb n 0 = List.replicate n false := by
  induction n with
  | zero => rfl
  | succ n ih => rw [bitsMsb, ih, Nat.zero_testBit, List.replicate_succ]

/-- A number of n bits is given by them. -/
theorem bitsMsb_inj {n v w : Nat} (hv : v < 2 ^ n) (hw : w < 2 ^ n) (h : bitsMsb n v = bitsMsb n w) : v = w := by
  induction n generalizing v w with
  | zero => omega
  | succ n ih =>
    rw [bitsMsb_add n 1 v, bitsMsb_add n 1 w] at h
    obtain ⟨hinit, hlast⟩ := List.append_inj h (by simp)
    have hhalf := ih (v := v >>> 1) (w := w >>> 1) (by omega) (by omega) hinit
    simp only [bitsMsb, List.cons.injEq, and_true, Nat.testBit_zero, decide_eq_decide] at hlast
    omega

/-- The bits of a number begin those of a longer one exactly when the number is the longer one's first bits. -/
theorem bitsMsb_prefix_iff {len val n v : Nat} (hval : val < 2 ^ len) (hv : v < 2 ^ n) :
    bitsMsb len val <+: bitsMsb n v ↔ len ≤ n ∧ v >>> (n - len) = val := by
  constructor
  · intro hp
    have hle : len ≤ n := by simpa using hp.length_le
    obtain ⟨k, rfl⟩ := Nat.exists_eq_add_of_le hle
    rw [Nat.add_sub_cancel_left]
    rw [bitsMsb_add] at hp
    have hbits := (List.prefix_of_prefix_length_le hp (List.prefix_append _ _) (by simp)).eq_of_length (by simp)
    have hlt : v >>> k < 2 ^ len := by
      rw [Nat.shiftRight_eq_div_pow]
      exact Nat.div_lt_of_lt_mul (by rwa [Nat.mul_comm, ← Nat.pow_add])
    exact ⟨hle, (bitsMsb_inj hval hlt hbits).symm⟩
  · rintro ⟨hle, rfl⟩
    obtain ⟨k, rfl⟩ := Nat.exists_eq_add_of_le hle
    rw [Nat.add_sub_cancel_left, bitsMsb_add]
    exact List.prefix_append _ _

/-! ### A colour's code set (R123) -/

/-- The code i is of the colour's set. -/
def G3Table.InSet (tbl : G3Table) (c : Color) (i : Instr) : Prop :=
  (∃ r ∈ tbl.rows c, r.instr = i) ∨ ∃ fill, i = .eol fill

/-- The bits are a proper beginning of a code of the colour's set. -/
def G3Table.Begins (tbl : G3Table) (c : Color) (bits : List Bool) : Prop :=
  ∃ i ext, tbl.InSet c i ∧ ext ≠ [] ∧ encodeCode tbl i = bits ++ ext

theorem encodeCode_eol (tbl : G3Table) (fill : Nat) :
    encodeCode tbl (.eol fill) = List.replicate (fill + 11) false ++ [true] := rfl

/-- The bits of an EOL are those of the number 1 (R256). -/
theorem bitsMsb_eol (tbl : G3Table) (fill : Nat) : bitsMsb (fill + 12) 1 = encodeCode tbl (.eol fill) := by
  rw [encodeCode_eol, ← bitsMsb_zero]
  exact bitsMsb_snoc (fill + 11) 0 true

/-- A string of zeros begins an EOL. -/
theorem G3Table.begins_zeros (tbl : G3Table) (c : Color) (n : Nat) : tbl.Begins c (bitsMsb n 0) := by
  refine ⟨.eol n, List.replicate 11 false ++ [true], .inr ⟨n, rfl⟩, by simp, ?_⟩
  rw [encodeCode_eol, bitsMsb_zero, List.replicate_add, List.append_assoc]

section

variable {tbl : G3Table} (h : tbl.wf = true) {c : Color}
include h

/-- A code of the set at the head of a stream is read, and the bits after it are left. -/
theorem decodeCode_encodeCode {i : Instr} (hi : tbl.InSet c i) (rest : List Bool) :
    decodeCode tbl c (encodeCode tbl i ++ rest) = .ok (i, rest) := by
  obtain ⟨r, hr, rfl⟩ | ⟨fill, rfl⟩ := hi
  · rw [encodeCode_row hr]
    exact decodeCode_row h hr rest
  · rw [encodeCode_eol, List.append_assoc]
    exact decodeCode_eol h c fill rest

/-- What begins with a code does not properly begin one (R124). -/
theorem G3Table.not_begins {i : Instr} (hi : tbl.InSet c i) {bits : List Bool} (hp : encodeCode tbl i <+: bits) :
    ¬ tbl.Begins c bits := by
  rintro ⟨j, ext, hj, hne, hcode⟩
  obtain ⟨rest, rfl⟩ := hp
  have hread := decodeCode_encodeCode h hj []
  rw [List.append_nil, hcode, List.append_assoc, decodeCode_encodeCode h hi] at hread
  injection hread with hpair
  exact hne (List.append_eq_nil_iff.mp (Prod.mk.inj hpair).2).2

/-! ### The tests of ReadCode in terms of the bits taken (R202) -/

/-- A row is found exactly when its code is the bits taken. -/
theorem G3Table.bitsMsb_eq_row_iff {r : CodeRow} (hr : r ∈ tbl.rows c) {len val : Nat} (hval : val < 2 ^ len) :
    bitsMsb len val = encodeCode tbl r.instr ↔ r.len = len ∧ r.val = val := by
  rw [encodeCode_row hr]
  constructor
  · intro heq
    have hlen : len = r.len := by simpa using congrArg List.length heq
    subst hlen
    exact ⟨rfl, (bitsMsb_inj hval (G3Table.row_bounds h hr).1 heq).symm⟩
  · rintro ⟨rfl, rfl⟩
    rfl

/-- ReadCode goes on where a code does: a row that the bits begin extends them. -/
theorem G3Table.extends_iff {r : CodeRow} (hr : r ∈ tbl.rows c) {len val : Nat} (hval : val < 2 ^ len) :
    r.extends len val = true ↔ bitsMsb len val <+: encodeCode tbl r.instr := by
  rw [encodeCode_row hr, bitsMsb_prefix_iff hval (G3Table.row_bounds h hr).1]
  simp [CodeRow.extends]

/-- Bits that begin a code and are not an EOL are zeros, or extended by a row. -/
theorem G3Table.goesOn_of_prefix {len val : Nat} (hval : val < 2 ^ len) (heol : ¬ (val = 1 ∧ 12 ≤ len)) {i : Instr}
    (hi : tbl.InSet c i) (hp : bitsMsb len val <+: encodeCode tbl i) :
    val = 0 ∨ ((tbl.rows c).any fun r => r.extends len val) = true := by
  obtain ⟨r, hr, rfl⟩ | ⟨fill, rfl⟩ := hi
  · exact .inr (List.any_eq_true.mpr ⟨r, hr, (G3Table.extends_iff h hr hval).mpr hp⟩)
  · rw [← bitsMsb_eol, bitsMsb_prefix_iff hval (Nat.one_lt_two_pow (by omega))] at hp
    obtain ⟨hle, hone⟩ := hp
    cases hk : fill + 12 - len with
    | zero =>
      rw [hk] at hone
      exact absurd ⟨hone.symm, by omega⟩ heol
    | succ k =>
      rw [hk, Nat.add_comm, Nat.shiftRight_add, show 1 >>> 1 = 0 from rfl, Nat.zero_shiftRight] at hone
      exact .inl hone.symm

/-- Where ReadCode goes on, the bits taken are a proper beginning of a code. -/
theorem G3Table.begins_of_goesOn {len val : Nat} (hval : val < 2 ^ len)
    (hnone : ∀ r ∈ tbl.rows c, ¬ (r.len = len ∧ r.val = val))
    (hgo : val = 0 ∨ ((tbl.rows c).any fun r => r.extends len val) = true) : tbl.Begins c (bitsMsb len val) := by
  obtain rfl | hany := hgo
  · exact tbl.begins_zeros c len
  · obtain ⟨r, hr, hext⟩ := List.any_eq_true.mp hany
    obtain ⟨ext, hcode⟩ := (G3Table.extends_iff h hr hval).mp hext
    refine ⟨r.instr, ext, .inl ⟨r, hr, rfl⟩, ?_, hcode.symm⟩
    rintro rfl
    rw [List.append_nil] at hcode
    exact hnone r hr ((G3Table.bitsMsb_eq_row_iff h hr hval).mp hcode)

end

/-! ### What ReadCode answers (R202) -/

/-- The answer that R202 asks for on a stream: the code at its head and the bits after it; TRUNCATED when the stream is
a proper beginning of a code; G3_BAD_CODE when it neither begins a code nor begins with one. -/
def G3Table.Answers (tbl : G3Table) (c : Color) (bits : List Bool) : Except Reject (Instr × List Bool) → Prop
  | .ok (i, rest) => tbl.InSet c i ∧ bits = encodeCode tbl i ++ rest
  | .error .truncated => tbl.Begins c bits
  | .error .badCode => ∀ i, tbl.InSet c i → ¬ bits <+: encodeCode tbl i ∧ ¬ encodeCode tbl i <+: bits
  | .error _ => False

/-- ReadCode stops where no code goes on. -/
theorem readCode_stops {rows : List CodeRow} {len val : Nat} {b : Bool} (t : List Bool)
    (he : ¬ (2 * val + b.toNat = 1 ∧ 12 ≤ len + 1))
    (hf : rows.find? (fun r => r.len == len + 1 && r.val == 2 * val + b.toNat) = none)
    (hp : ¬ (2 * val + b.toNat = 0 ∨ (rows.any fun r => r.extends (len + 1) (2 * val + b.toNat)) = true)) :
    readCode rows len val (b :: t) = .error .badCode := by
  rw [readCode, if_neg he, hf]
  exact if_neg hp

section

variable {tbl : G3Table} (h : tbl.wf = true) {c : Color}
include h

/-- No code fits where ReadCode gives up after one bit more: a code that ended before it would begin the code that the
bits before it begin. -/
theorem G3Table.answers_badCode {len val : Nat} {b : Bool} (t : List Bool) (hbegins : tbl.Begins c (bitsMsb len val))
    (hval : 2 * val + b.toNat < 2 ^ (len + 1)) (heol : ¬ (2 * val + b.toNat = 1 ∧ 12 ≤ len + 1))
    (hstop : ¬ (2 * val + b.toNat = 0 ∨
      ((tbl.rows c).any fun r => r.extends (len + 1) (2 * val + b.toNat)) = true)) :
    tbl.Answers c (bitsMsb (len + 1) (2 * val + b.toNat) ++ t) (.error .badCode) := by
  have hnot (i : Instr) (hi : tbl.InSet c i) : ¬ bitsMsb (len + 1) (2 * val + b.toNat) <+: encodeCode tbl i :=
    fun hp => hstop (G3Table.goesOn_of_prefix h hval heol hi hp)
  refine fun i hi => ⟨fun hp => hnot i hi ((List.prefix_append _ _).trans hp), fun hp => ?_⟩
  obtain hlong | hshort := List.prefix_or_prefix_of_prefix (List.prefix_append _ _) hp
  · exact hnot i hi hlong
  · rw [bitsMsb_snoc, List.prefix_concat_iff, ← bitsMsb_snoc] at hshort
    obtain heq | hbefore := hshort
    · exact hnot i hi (heq ▸ List.prefix_refl _)
    · exact G3Table.not_begins h hi hbefore hbegins

/-- ReadCode answers as R202 asks, from any bits taken that are a proper beginning of a code. -/
theorem readCode_answers (bits : List Bool) {len val : Nat} (hval : val < 2 ^ len)
    (hbegins : tbl.Begins c (bitsMsb len val)) :
    tbl.Answers c (bitsMsb len val ++ bits) (readCode (tbl.rows c) len val bits) := by
  induction bits generalizing len val with
  | nil =>
    rw [List.append_nil]
    exact hbegins
  | cons b t ih =>
    have hval' : 2 * val + b.toNat < 2 ^ (len + 1) := by
      have := b.toNat_le
      omega
    rw [← List.singleton_append, ← List.append_assoc, ← bitsMsb_snoc]
    by_cases heol : 2 * val + b.toNat = 1 ∧ 12 ≤ len + 1
    · rw [List.singleton_append, readCode_eol t heol.1 heol.2, heol.1]
      refine ⟨.inr ⟨_, rfl⟩, ?_⟩
      rw [← bitsMsb_eol, Nat.sub_add_cancel heol.2]
    · cases hf : (tbl.rows c).find? fun r => r.len == len + 1 && r.val == 2 * val + b.toNat with
      | some r =>
        have hr := List.mem_of_find?_eq_some hf
        have hfound := List.find?_some hf
        rw [Bool.and_eq_true, beq_iff_eq, beq_iff_eq] at hfound
        rw [List.singleton_append, readCode_found t heol hf, (G3Table.bitsMsb_eq_row_iff h hr hval').mpr hfound]
        exact ⟨.inl ⟨r, hr, rfl⟩, rfl⟩
      | none =>
        have hnone : ∀ r ∈ tbl.rows c, ¬ (r.len = len + 1 ∧ r.val = 2 * val + b.toNat) := by
          simpa using hf
        by_cases hgo : 2 * val + b.toNat = 0 ∨
            ((tbl.rows c).any fun r => r.extends (len + 1) (2 * val + b.toNat)) = true
        · rw [List.singleton_append, readCode_more t heol hf hgo]
          exact ih hval' (G3Table.begins_of_goesOn h hval' hnone hgo)
        · rw [List.singleton_append, readCode_stops t heol hf hgo]
          exact G3Table.answers_badCode h t hbegins hval' heol hgo

/-- ReadCode answers as R202 asks on every stream. -/
theorem decodeCode_answers (c : Color) (bits : List Bool) : tbl.Answers c bits (decodeCode tbl c bits) :=
  readCode_answers h bits (len := 0) (val := 0) Nat.one_pos (tbl.begins_zeros c 0)

end

/-- Settles O7: ReadCode answers as R202 asks, and of the three answers no two fit one stream. -/
theorem readCodeExact : Obligations.ReadCodeExact := by
  intro tbl c bits h inSet
  have hans := decodeCode_answers h c bits
  refine ⟨fun i rest => ⟨fun hd => ?_, ?_⟩, ⟨fun hd => ?_, fun hb => ?_⟩, fun hd => ?_, fun hbad => ?_⟩
  · rwa [hd] at hans
  · rintro ⟨hi, rfl⟩
    exact decodeCode_encodeCode h hi rest
  · rwa [hd] at hans
  · match hd : decodeCode tbl c bits, hans with
    | .ok (i, rest), ⟨hi, hbits⟩ => exact absurd hb (G3Table.not_begins h hi ⟨rest, hbits.symm⟩)
    | .error .truncated, _ => rfl
    | .error .badCode, hbad =>
      obtain ⟨i, ext, hi, -, hcode⟩ := hb
      exact absurd ⟨ext, hcode.symm⟩ (hbad i hi).1
  · rwa [hd] at hans
  · match hd : decodeCode tbl c bits, hans with
    | .ok (i, rest), ⟨hi, hbits⟩ => exact absurd ⟨rest, hbits.symm⟩ (hbad i hi).2
    | .error .truncated, ⟨i, ext, hi, _, hcode⟩ => exact absurd ⟨ext, hcode.symm⟩ (hbad i hi).1
    | .error .badCode, _ => rfl

end Sys2Proof
end

section
/-!
PROOF. The codes of a Group-3 stream (spec/41_g3_decode.md R203 to R211): what a run of pixels leaves in memory, every
outcome of a code while the hazard rule is kept, and the bound on the decode's steps (R213). A step of the decode either
goes on, at least two input bits further (`State.TakesBits`), or ends the operation (`State.Stops`).
-/

namespace Sys2Proof.Machine

/-! ### The pixels of a run as bits (R209) -/

/-- One 1-bit pixel is stored at its place, and every other pixel of its row stays. -/
theorem State.bitAt_putBit {s : State} (h : s.plat.races = []) (x y x' : Nat) (v : Bool) :
    (s.putBit x y v).bitAt (s.outRow .d1 y) x' = if x' = x then v else s.bitAt (s.outRow .d1 y) x' := by
  have hbyte : (s.putBit x y v).memByte (s.outRow .d1 y + x' / 8) =
      if x' / 8 = x / 8 then replaceBit (s.memByte (s.outRow .d1 y + x / 8)) x v
      else s.memByte (s.outRow .d1 y + x' / 8) := by
    rw [State.putBit, State.memByte_outWrite, State.outByte, State.engRead_of_no_races h, State.outRow, ← Nat.add_assoc]
    simp only [Nat.add_left_cancel_iff]
  rw [State.bitAt, hbyte, State.bitAt]
  by_cases hsame : x' / 8 = x / 8
  · rw [if_pos hsame, hsame, replaceBit_getLsbD]
    exact if_congr (by omega) rfl rfl
  · rw [if_neg hsame, if_neg fun hx : x' = x => hsame (by rw [hx])]

/-- The pixels of a run, from x on; every other pixel of the row stays. -/
theorem State.bitAt_putBitRun (n : Nat) {s : State} (h : s.plat.races = []) (x y x' : Nat) (v : Bool) :
    (s.putBitRun x y v n).bitAt (s.outRow .d1 y) x' =
      if x ≤ x' ∧ x' < x + n then v else s.bitAt (s.outRow .d1 y) x' := by
  induction n generalizing s x with
  | zero =>
    rw [if_neg (by omega)]
    rfl
  | succ n ih =>
    have hrest := ih (s := s.putBit x y v) h (x + 1)
    rw [show (s.putBit x y v).outRow .d1 y = s.outRow .d1 y from rfl, State.bitAt_putBit h] at hrest
    rw [State.putBitRun, hrest]
    by_cases hx : x' = x
    · rw [if_neg (by omega), if_pos hx, if_pos (by omega)]
    · rw [if_neg hx]
      exact if_congr (by omega) rfl rfl

/-- A run leaves every byte before its row alone. -/
theorem State.memByte_putBitRun_below (n : Nat) (s : State) (x : Nat) {y a : Nat} (v : Bool) (ha : a < s.outRow .d1 y) :
    (s.putBitRun x y v n).memByte a = s.memByte a := by
  rw [State.outRow] at ha
  exact State.memByte_putBitRun n s x y v a fun i _ => by omega

/-- A run changes memory alone. -/
theorem State.putBitRun_eq (n : Nat) (s : State) (x y : Nat) (v : Bool) :
    s.putBitRun x y v n = { s with mem := (s.putBitRun x y v n).mem } := by
  induction n generalizing s x with
  | zero => rfl
  | succ n ih => exact ih (s.putBit x y v) (x + 1)

/-! ### The outcomes of a code (R203, R214) -/

theorem terminateRun_widthOverflow {n : Nat} {s : State}
    (hw : s.cfg.width.toNat < s.eng.x.toNat + (s.eng.pend.toNat + n)) :
    terminateRun n s = .error .widthOverflow :=
  if_pos hw

theorem terminateRun_bufferOverflow {n : Nat} {s : State}
    (hw : ¬ s.cfg.width.toNat < s.eng.x.toNat + (s.eng.pend.toNat + n))
    (hb : 0 < s.eng.pend.toNat + n ∧ (s.cfg.height.toNat ≤ s.eng.y.toNat ∨ s.cfg.outLen.toNat ≤
      s.eng.y.toNat * stride .d1 s.cfg.width.toNat + (s.eng.x.toNat + (s.eng.pend.toNat + n) - 1) / 8)) :
    terminateRun n s = .error .bufferOverflow :=
  (if_neg hw).trans (if_pos hb)

/-- The line after a run of t pixels and a change of colour (R206). -/
def Engine.passRun (e : Engine) (t : Nat) : Engine :=
  { e with x := .ofNat 32 (e.x.toNat + t), pend := 0, color := Color.other e.color, sawCode := true, eolRun := 0 }

theorem terminateRun_writes {n : Nat} {s : State}
    (hw : ¬ s.cfg.width.toNat < s.eng.x.toNat + (s.eng.pend.toNat + n))
    (hb : ¬ (0 < s.eng.pend.toNat + n ∧ (s.cfg.height.toNat ≤ s.eng.y.toNat ∨ s.cfg.outLen.toNat ≤
      s.eng.y.toNat * stride .d1 s.cfg.width.toNat + (s.eng.x.toNat + (s.eng.pend.toNat + n) - 1) / 8))) :
    terminateRun n s = .ok { s with
      mem := (s.putBitRun s.eng.x.toNat s.eng.y.toNat (Color.bit s.eng.color) (s.eng.pend.toNat + n)).mem
      eng := s.eng.passRun (s.eng.pend.toNat + n) } := by
  have hrun := s.putBitRun_eq (s.eng.pend.toNat + n) s.eng.x.toNat s.eng.y.toNat (Color.bit s.eng.color)
  refine ((if_neg hw).trans (if_neg hb)).trans ?_
  rw [hrun]
  rfl

/-- The end of a code whose effect is on memory and the line alone. -/
theorem consumeCode_eq_afterCode (s : State) (m : Memory) (len : Nat) {e : Engine} (hq : e.q = s.eng.q) :
    State.consumeCode { s with mem := m, eng := e } len = s.afterCode m len e := by
  rw [State.afterCode, ← hq]
  rfl

section

variable {s : State} (hr : s.running .decHuff .d1 = true) (hraces : s.plat.races = [])
include hr hraces

/-- A run code before the first EOL is G3_NO_LEADING_EOL (R203). -/
theorem runCode_ends_not_started (len : Nat) (effect : State → Except ErrCode State) (h : s.eng.started = false) :
    runCode len effect s = .next (s.ended .g3NoLeadingEol) := by
  rw [runCode_not_started hr h, State.raise_of_no_races hraces]

theorem runCode_ends_error {len : Nat} {effect : State → Except ErrCode State} {c : ErrCode} (h : s.eng.started = true)
    (hc : effect s = .error c) : runCode len effect s = .next (s.ended c) := by
  rw [runCode_error hr h hc, State.raise_of_no_races hraces]

end

/-- Settles O25: the errors in their order, or the run is written in its colour's bit and passed. -/
theorem terminatingCodes : Obligations.TerminatingCodes := by
  intro c row s hrow hcolor hr hraces _ x y t base
  subst hcolor
  rw [exec_terminating hrow, terminatingCode]
  split
  · exact runCode_ends_not_started hr hraces _ _ ‹_›
  · have hstarted := Bool.of_not_eq_false ‹¬ s.eng.started = false›
    split
    · exact runCode_ends_error hr hraces hstarted (terminateRun_widthOverflow ‹_›)
    · split
      · exact runCode_ends_error hr hraces hstarted (terminateRun_bufferOverflow ‹_› ‹_›)
      · refine ⟨(s.putBitRun x y (Color.bit s.eng.color) t).mem, ?_, fun a ha => ?_, fun x' => ?_⟩
        · rw [runCode_ok hr hstarted (terminateRun_writes ‹_› ‹_›)]
          exact congrArg Host.Outcome.next (consumeCode_eq_afterCode s _ row.len rfl)
        · exact State.memByte_putBitRun_below t s x _ ha
        · exact State.bitAt_putBitRun t hraces x y x' _

/-- Settles O26: the errors in their order, or the run joins the total that waits. -/
theorem makeUpCodes : Obligations.MakeUpCodes := by
  intro c row s hrow _ hr hraces _
  rw [exec_makeUp hrow, makeUpCode]
  split
  · exact runCode_ends_not_started hr hraces _ _ ‹_›
  · have hstarted := Bool.of_not_eq_false ‹¬ s.eng.started = false›
    split
    · exact runCode_ends_error hr hraces hstarted (if_pos ‹_›)
    · rw [runCode_ok hr hstarted (if_neg ‹_›)]
      exact congrArg Host.Outcome.next (consumeCode_eq_afterCode s s.mem row.len rfl)

/-! ### EOL (R204, R205, R210) -/

/-- The first EOL starts row 0 (R204). -/
theorem eolEngine_first {e : Engine} (h : e.started = false) :
    eolEngine e = { e with started := true, eolRun := 1 } := by
  rw [eolEngine, if_neg (by simp [h])]

/-- An EOL after codes ends the line (R204, R210). -/
theorem eolEngine_endsLine {e : Engine} (h : e.started = true) (hc : e.sawCode = true) :
    eolEngine e =
      { e with y := .ofNat 32 (sat32 (e.y.toNat + 1)), x := 0, color := .white, sawCode := false, eolRun := 1 } := by
  rw [eolEngine, if_pos h, if_pos hc]

/-- An EOL after an EOL is counted (R205). -/
theorem eolEngine_counts {e : Engine} (h : e.started = true) (hc : e.sawCode = false) :
    eolEngine e = { e with eolRun := e.eolRun + 1 } := by
  rw [eolEngine, if_pos h, if_neg (by simp [hc])]

section

variable {s : State} (hr : s.running .decHuff .d1 = true) (hraces : s.plat.races = [])
include hr

/-- EOL goes on in the line of its bookkeeping while it is not the sixth in a row. -/
theorem execEol_goesOn (fill : Nat) (hp : s.eng.pend = 0) {e : Engine} (he : eolEngine s.eng = e)
    (hq : e.q = s.eng.q) (hn : e.eolRun.toNat ≠ 6) : execEol fill s = .next (s.afterCode s.mem (12 + fill) e) := by
  subst he
  rw [execEol, State.within_of_running hr, if_neg (not_not.mpr hp)]
  exact congrArg Host.Outcome.next ((if_neg hn).trans (consumeCode_eq_afterCode s s.mem (12 + fill) hq))

include hraces

/-- A total that waits at an EOL is G3_MAKEUP_AT_EOL (R204). -/
theorem execEol_ends_pending (fill : Nat) (hp : s.eng.pend ≠ 0) :
    execEol fill s = .next (s.ended .g3MakeupAtEol) := by
  rw [execEol, State.within_of_running hr, if_pos hp, State.raise_of_no_races hraces]

/-- The sixth EOL in a row is success, behind its bits (R205). -/
theorem execEol_ends_sixth (fill : Nat) (hp : s.eng.pend = 0) {e : Engine} (he : eolEngine s.eng = e)
    (hn : e.eolRun.toNat = 6) :
    execEol fill s = .next (State.consumeBits { s with eng := e } (12 + fill)).done := by
  subst he
  rw [execEol, State.within_of_running hr, if_neg (not_not.mpr hp)]
  exact congrArg Host.Outcome.next ((if_pos hn).trans (State.finish_of_no_races hraces))

end

/-- Settles O27: by what the line's bookkeeping makes of the EOL. -/
theorem eolCode : Obligations.EolCode := by
  intro fill s hr hraces _ heol
  show execEol fill s = _
  split
  · exact execEol_ends_pending hr hraces fill ‹_›
  · rename_i hp
    rw [not_not] at hp
    split
    · exact execEol_goesOn hr fill hp (eolEngine_first ‹_›) rfl (by simp)
    · have hstarted := Bool.of_not_eq_false ‹¬ s.eng.started = false›
      split
      · exact execEol_goesOn hr fill hp (eolEngine_endsLine hstarted ‹_›) rfl (by simp)
      · have hcount := eolEngine_counts hstarted (Bool.of_not_eq_true ‹_›)
        split
        · exact execEol_goesOn hr fill hp hcount rfl (by bv_omega)
        · have hsix : s.eng.eolRun + 1 = 6 := by bv_omega
          rw [hsix] at hcount
          exact execEol_ends_sixth hr hraces fill hp hcount rfl

/-! ### The relation: the decode goes on -/

/-- From s to t a Group-3 decode goes on, at least two bits of input further. -/
structure State.TakesBits (s t : State) : Prop where
  plat : t.plat = s.plat
  cfg : t.cfg = s.cfg
  g3 : t.g3 = s.g3
  running : t.running .decHuff .d1 = true
  cursor : s.eng.q.toNat + 2 ≤ t.eng.q.toNat

theorem State.running_bits {s : State} (hr : s.running .decHuff .d1 = true) : s.eng.q.toNat ≤ 8 * s.cfg.inLen.toNat :=
  of_decide_eq_true (State.running_cursor hr)

theorem State.takesBits_afterCode {s : State} {len : Nat} (hr : s.running .decHuff .d1 = true) (hlen : 2 ≤ len)
    (hl : s.bitsLeft len) (m : Memory) {e : Engine} (hp : e.phase = s.eng.phase) :
    s.TakesBits (s.afterCode m len e) := by
  have hin := s.cfg.inLen.isLt
  unfold State.bitsLeft at hl
  have hq : (s.afterCode m len e).eng.q.toNat = s.eng.q.toNat + len := toNat_ofNat_of_lt (by omega)
  have hcursor : (s.afterCode m len e).cursorOk .decHuff = true := decide_eq_true (hq ▸ hl)
  exact ⟨rfl, rfl, rfl, State.running_of_eq hr rfl rfl hp hcursor, by omega⟩

/-- The effect of a run code is on memory and the line alone. -/
theorem CodeEffect.eq_of_ok {effect : State → Except ErrCode State} (hef : CodeEffect effect) {s u : State}
    (h : effect s = .ok u) :
    ∃ m e, u = { s with mem := m, eng := e } ∧ e.phase = s.eng.phase ∧ e.q = s.eng.q := by
  cases hef with
  | terminating n =>
    obtain ⟨-, -, rfl⟩ := terminateRun_ok h
    rw [State.putBitRun_eq]
    exact ⟨_, _, rfl, rfl, rfl⟩
  | makeUp n =>
    obtain ⟨-, rfl⟩ := makeUpRun_ok h
    exact ⟨_, _, rfl, rfl, rfl⟩

theorem runCode_takesBits_or_stops {len : Nat} {effect : State → Except ErrCode State} (hef : CodeEffect effect)
    {s t : State} (h : runCode len effect s = .next t) (hlen : 2 ≤ len) (hl : s.bitsLeft len) :
    s.TakesBits t ∨ s.Stops t := by
  obtain ⟨hr, ⟨c, rfl⟩ | ⟨-, u, hu, rfl⟩⟩ := runCode_cases h
  · exact .inr (s.stops_raise c)
  · obtain ⟨m, e, rfl, hp, hq⟩ := hef.eq_of_ok hu
    rw [consumeCode_eq_afterCode s m len hq]
    exact .inl (State.takesBits_afterCode hr hlen hl m hp)

theorem execEol_takesBits_or_stops {fill : Nat} {s t : State} (h : execEol fill s = .next t)
    (hl : s.bitsLeft (12 + fill)) : s.TakesBits t ∨ s.Stops t := by
  obtain ⟨hr, ⟨-, rfl⟩ | ⟨-, -, rfl⟩ | ⟨-, -, rfl⟩⟩ := execEol_cases h
  · exact .inr (s.stops_raise _)
  · exact .inr ⟨_, .inl rfl, rfl⟩
  · rw [consumeCode_eq_afterCode s s.mem (12 + fill) (eolEngine_q s.eng)]
    exact .inl (State.takesBits_afterCode hr (by omega) hl s.mem (eolEngine_phase s.eng))

/-! ### The decode ends (R213) -/

/-- A step of a Group-3 decode goes on or stops. -/
theorem step_huff {s : State} (hcalm : s.calm) (hr : s.running .decHuff .d1 = true)
    (hlen : ∀ c, ∀ r ∈ s.g3.rows c, 2 ≤ r.len) : ∃ t, step s = .next t ∧ (s.TakesBits t ∨ s.Stops t) := by
  rw [step_calm_body hcalm (State.running_phase hr)]
  obtain ⟨t, ht⟩ := interpretStep_answers_huff hr
  refine ⟨t, ht, ?_⟩
  obtain ⟨i, hf, hexec⟩ | ⟨-, rfl⟩ | ⟨c, -, rfl⟩ := interpretStep_cases ht
  · rw [State.fetch_huff hr] at hf
    obtain ⟨r, hrow, rfl, hl⟩ | ⟨fill, rfl, hl⟩ := State.fetchCode_run hf (State.running_bits hr)
    · obtain hterm | hmake := List.mem_append.mp hrow
      · rw [exec_terminating hterm] at hexec
        exact runCode_takesBits_or_stops (.terminating r.run) hexec (hlen _ r hrow) hl
      · rw [exec_makeUp hmake] at hexec
        exact runCode_takesBits_or_stops (.makeUp r.run) hexec (hlen _ r hrow) hl
    · exact execEol_takesBits_or_stops hexec hl
  · exact .inr ⟨_, .inl rfl, rfl⟩
  · exact .inr (s.stops_raise c)

/-- An operation ends within n + 1 steps when each step that goes on lowers n by one. -/
theorem run_ends {P : Nat → State → Prop} (hcalm : ∀ n s, P n s → s.calm)
    (hstep : ∀ n s, P n s → ∃ t, step s = .next t ∧ ((∃ m, n = m + 1 ∧ P m t) ∨ s.Stops t)) {n : Nat} {s : State}
    (h : P n s) :
    ∃ t : State, Host.Core.run Sys2Proof.core (n + 1) s = .next t ∧ t.busy = false ∧ t.status.done = true := by
  induction n generalizing s with
  | zero =>
    obtain ⟨t, ht, ⟨m, hm, -⟩ | hs⟩ := hstep 0 s h
    · cases hm
    · exact ⟨t, run_of_step (M := Sys2Proof.core) ht 0, hs.done⟩
  | succ n ih =>
    obtain ⟨t, ht, ⟨m, hm, hnext⟩ | hs⟩ := hstep (n + 1) s h
    · cases hm
      obtain ⟨u, hrun, hend⟩ := ih hnext
      exact ⟨u, (run_of_step (M := Sys2Proof.core) ht _).trans hrun, hend⟩
    · refine ⟨t, ?_, hs.done⟩
      exact (run_of_step (M := Sys2Proof.core) ht _).trans (run_idle (hs.calm (hcalm _ s h)) hs.done.1 _)

/-- A calm Group-3 decode, no code of its table under 2 bits, has at most 2n + 1 bits of input left. -/
structure State.HuffLeft (n : Nat) (s : State) : Prop where
  calm : s.calm
  running : s.running .decHuff .d1 = true
  twoBits : ∀ c, ∀ r ∈ s.g3.rows c, 2 ≤ r.len
  left : 8 * s.cfg.inLen.toNat - s.eng.q.toNat ≤ 2 * n + 1

theorem State.HuffLeft.step {n : Nat} {s : State} (h : s.HuffLeft n) :
    ∃ t, step s = .next t ∧ ((∃ m, n = m + 1 ∧ t.HuffLeft m) ∨ s.Stops t) := by
  obtain ⟨t, hstep, ht | hs⟩ := step_huff h.calm h.running h.twoBits
  · refine ⟨t, hstep, .inl ?_⟩
    have hcalm : t.calm := by
      rw [State.calm, ht.plat]
      exact h.calm
    have hleft := h.left
    have hcursor := ht.cursor
    have hbits := State.running_bits ht.running
    rw [ht.cfg] at hbits
    obtain ⟨m, rfl⟩ := Nat.exists_eq_succ_of_ne_zero (show n ≠ 0 by omega)
    exact ⟨m, rfl, hcalm, ht.running, ht.g3 ▸ h.twoBits, by rw [ht.cfg]; omega⟩
  · exact ⟨t, hstep, .inr hs⟩

/-- Settles O28: each step that goes on takes at least two of the bits left. -/
theorem group3DecodeEnds : Obligations.Group3DecodeEnds := by
  intro s _ hcalm hr hlen
  have hleft : s.HuffLeft ((8 * s.cfg.inLen.toNat - s.eng.q.toNat) / 2) := ⟨hcalm, hr, hlen, by omega⟩
  exact run_ends (fun _ _ => State.HuffLeft.calm) (fun _ _ => State.HuffLeft.step) hleft

end Sys2Proof.Machine
end

section
/-!
PROOF. The default G3_TABLE (spec/42_g3_code_tables.md R250). Prefix-freeness is `G3Table.wf` in terms of the codes' bits.
The strings that make up the rest are told from the codes by their leading zeros: a row of the default table has 7 at most,
an EOL has 11 at least.
-/

namespace Sys2Proof

/-! ### A table without prefixes, in bits (R124) -/

section

variable {tbl : G3Table} (h : tbl.wf = true) {c : Color}
include h

/-- A code that begins another is that code: the decoder reads both off the longer one's bits. -/
theorem eq_of_encodeCode_prefix {i j : Instr} (hi : tbl.InSet c i) (hj : tbl.InSet c j)
    (hp : encodeCode tbl i <+: encodeCode tbl j) : i = j := by
  obtain ⟨ext, hext⟩ := hp
  have hread := decodeCode_encodeCode h hj []
  rw [List.append_nil, ← hext, decodeCode_encodeCode h hi] at hread
  injection hread with hpair
  exact (Prod.mk.inj hpair).1

theorem G3Table.not_prefix_of_isPrefixOf {r r' : CodeRow} (hr : r ∈ tbl.rows c) (hr' : r' ∈ tbl.rows c)
    (hp : r.code.isPrefixOf r'.code = false) : ¬ bitsMsb r.len r.val <+: bitsMsb r'.len r'.val := by
  rw [bitsMsb_prefix_iff (G3Table.row_bounds h hr).1 (G3Table.row_bounds h hr').1]
  rintro ⟨hlen, hval⟩
  simp [Code.isPrefixOf, CodeRow.code, hlen, hval] at hp

theorem G3Table.row_not_prefix_eol {r : CodeRow} (hr : r ∈ tbl.rows c) (fill : Nat) :
    ¬ encodeCode tbl (.eol fill) <+: bitsMsb r.len r.val ∧ ¬ bitsMsb r.len r.val <+: encodeCode tbl (.eol fill) := by
  have hrow : tbl.InSet c r.instr := .inl ⟨r, hr, rfl⟩
  have heol : tbl.InSet c (.eol fill) := .inr ⟨fill, rfl⟩
  rw [← encodeCode_row hr]
  exact ⟨fun hp => G3Table.row_ne_eol hr fill (eq_of_encodeCode_prefix h heol hrow hp).symm,
    fun hp => G3Table.row_ne_eol hr fill (eq_of_encodeCode_prefix h hrow heol hp)⟩

/-- No code of a colour's set is a prefix of another or of EOL, nor EOL of one. -/
theorem G3Table.codes_prefixFree (c : Color) :
    (encodeCode tbl (.eol 0) :: (tbl.rows c).map fun r => bitsMsb r.len r.val).Pairwise
      fun a b => ¬ a <+: b ∧ ¬ b <+: a := by
  refine List.pairwise_cons.mpr ⟨List.forall_mem_map.mpr fun r hr => G3Table.row_not_prefix_eol h hr 0, ?_⟩
  refine List.pairwise_map.mpr ((G3Table.wf_rows h c).2.imp_of_mem fun hr hr' hp => ?_)
  exact ⟨G3Table.not_prefix_of_isPrefixOf h hr hr' hp.1, G3Table.not_prefix_of_isPrefixOf h hr' hr hp.2⟩

end

/-! ### Leading zeros -/

/-- The zeros before the first 1 of a stream. -/
def leadingZeros (bits : List Bool) : Nat := (bits.takeWhile fun b => !b).length

theorem leadingZeros_append {bits : List Bool} (h : true ∈ bits) (rest : List Bool) :
    leadingZeros (bits ++ rest) = leadingZeros bits := by
  have hne : (bits.takeWhile fun b => !b).length ≠ bits.length := fun hl => by
    have hself := (List.takeWhile_prefix _).eq_of_length hl
    simpa using List.takeWhile_eq_self_iff.mp hself true h
  rw [leadingZeros, List.takeWhile_append, if_neg hne, leadingZeros]

theorem leadingZeros_zeros (n : Nat) (rest : List Bool) :
    leadingZeros (List.replicate n false ++ rest) = n + leadingZeros rest := by
  simp [leadingZeros]

/-- A stream that begins another and has a 1 has its leading zeros. -/
theorem leadingZeros_eq_of_prefix {bits bits' : List Bool} (h : true ∈ bits) (hp : bits <+: bits') :
    leadingZeros bits' = leadingZeros bits := by
  obtain ⟨rest, rfl⟩ := hp
  exact leadingZeros_append h rest

theorem true_mem_bitsMsb {n v : Nat} (hv : v < 2 ^ n) (hpos : 0 < v) : true ∈ bitsMsb n v := by
  by_contra hno
  have hzeros : bitsMsb n v = List.replicate n false :=
    List.eq_replicate_iff.mpr ⟨bitsMsb_length n v, fun b hb => Bool.eq_false_iff.mpr fun hb' => hno (hb' ▸ hb)⟩
  have := bitsMsb_inj hv (Nat.two_pow_pos n) (hzeros.trans (bitsMsb_zero n).symm)
  omega

theorem G3Table.true_mem_encodeCode {tbl : G3Table} (h : tbl.wf = true) {c : Color} {i : Instr} (hi : tbl.InSet c i) :
    true ∈ encodeCode tbl i := by
  obtain ⟨r, hr, rfl⟩ | ⟨fill, rfl⟩ := hi
  · rw [encodeCode_row hr]
    exact true_mem_bitsMsb (G3Table.row_bounds h hr).1 (G3Table.row_val_pos h hr)
  · simp [encodeCode_eol]

theorem leadingZeros_eol (tbl : G3Table) (fill : Nat) : leadingZeros (encodeCode tbl (.eol fill)) = fill + 11 := by
  rw [encodeCode_eol, leadingZeros_zeros]
  rfl

/-! ### The default table (R250) -/

set_option maxRecDepth 20000 in
theorem t4Table_leadingZeros (c : Color) : ∀ r ∈ t4Table.rows c, leadingZeros (bitsMsb r.len r.val) ≤ 7 := by
  cases c <;> decide

set_option maxRecDepth 20000 in
/-- With EOL's 2^-12, the codes of a colour leave 15/4096 of the streams without a code. -/
theorem t4Table_kraftSum (c : Color) :
    ((t4Table.rows c).map fun r => 2 ^ (13 - r.len)).sum + 2 ^ (13 - 12) = 2 ^ 13 - 2 * 15 := by
  cases c <;> decide

set_option maxRecDepth 20000 in
theorem t4Table_whiteLen : ∀ r ∈ t4Table.rows .white, 4 ≤ r.len ∧ r.len ≤ 12 := by
  decide

set_option maxRecDepth 20000 in
theorem t4Table_blackLen : ∀ r ∈ t4Table.rows .black, 2 ≤ r.len ∧ r.len ≤ 13 := by
  decide

/-- A code of the default table is a row of at most 7 leading zeros, or an EOL. -/
theorem t4Table_code_cases {c : Color} {i : Instr} (hi : t4Table.InSet c i) :
    leadingZeros (encodeCode t4Table i) ≤ 7 ∨ ∃ fill, i = .eol fill := by
  obtain ⟨r, hr, rfl⟩ | heol := hi
  · rw [encodeCode_row hr]
    exact .inl (t4Table_leadingZeros c r hr)
  · exact .inr heol

/-- No code of the default table has 8, 9 or 10 leading zeros. -/
theorem t4Table_leadingZeros_gap {c : Color} {i : Instr} (hi : t4Table.InSet c i) :
    leadingZeros (encodeCode t4Table i) < 8 ∨ 10 < leadingZeros (encodeCode t4Table i) := by
  obtain hle | ⟨fill, rfl⟩ := t4Table_code_cases hi
  · exact .inl (by omega)
  · exact .inr (by rw [leadingZeros_eol]; omega)

/-- Eight to ten zeros and a 1 fit no code. -/
theorem decodeCode_gap (c : Color) {n : Nat} (hlow : 8 ≤ n) (hhigh : n ≤ 10) (rest : List Bool) :
    decodeCode t4Table c (List.replicate n false ++ true :: rest) = .error .badCode := by
  have hzeros : leadingZeros (List.replicate n false ++ true :: rest) = n := leadingZeros_zeros n (true :: rest)
  refine (readCodeExact t4Table c _ t4Table_wf).2.2.mpr fun i hi => ⟨fun hp => ?_, fun hp => ?_⟩
  · have heq := leadingZeros_eq_of_prefix (by simp) hp
    have hgap := t4Table_leadingZeros_gap hi
    omega
  · have heq := leadingZeros_eq_of_prefix (G3Table.true_mem_encodeCode t4Table_wf hi) hp
    have hgap := t4Table_leadingZeros_gap hi
    omega

/-- After twelve zeros only an EOL is read. -/
theorem eol_of_decodeCode_zeros {c : Color} {rest t : List Bool} {i : Instr}
    (h : decodeCode t4Table c (List.replicate 12 false ++ rest) = .ok (i, t)) : ∃ fill, i = .eol fill := by
  obtain ⟨hi, hbits⟩ := ((readCodeExact t4Table c _ t4Table_wf).1 i t).mp h
  refine (t4Table_code_cases hi).resolve_left fun hle => ?_
  have hzeros := congrArg leadingZeros hbits
  rw [leadingZeros_zeros, leadingZeros_append (G3Table.true_mem_encodeCode t4Table_wf hi)] at hzeros
  omega

/-- Settles O6: the counts and sums by evaluation, the prefixes and the strings without a code by the lemmas above. -/
theorem codeTableProperties : Obligations.CodeTableProperties := by
  refine ⟨⟨rfl, rfl⟩, ⟨rfl, rfl⟩, rfl, ⟨?_, ?_⟩, fun c => ⟨?_, ?_, ?_, fun rest => ⟨?_, ?_, ?_, ?_⟩⟩⟩
  · exact List.all_eq_true.mpr fun r hr => decide_eq_true (t4Table_whiteLen r hr)
  · exact List.all_eq_true.mpr fun r hr => decide_eq_true (t4Table_blackLen r hr)
  · exact G3Table.codes_prefixFree t4Table_wf c
  · exact List.all_eq_true.mpr fun r hr => decide_eq_true (t4Table_leadingZeros c r hr)
  · exact t4Table_kraftSum c
  · exact decodeCode_gap c (by omega) (by omega) rest
  · exact decodeCode_gap c (by omega) (by omega) rest
  · exact decodeCode_gap c (by omega) (by omega) rest
  · exact fun _ _ => eol_of_decodeCode_zeros

end Sys2Proof
end

section
/-!
PROOF. What emitting a unit does (spec/43_rle_encode.md R282, R286 to R289): BUFFER_OVERFLOW with nothing written, or the
unit's bytes at o, and the row's cursor behind its pixels.
-/

namespace Sys2Proof.Machine

/-! ### A unit of a row -/

theorem State.runItems_eq (s : State) (c : Nat) :
    s.runItems c = if s.ctrl.op = Operation.encRle4.code then (c + 1) / 2 else c := by
  simp [State.runItems, State.encodes4]

theorem State.encStride_eq (s : State) :
    s.encStride = stride (if s.ctrl.op = Operation.encRle4.code then .d4 else .d8) s.cfg.width.toNat := by
  simp [State.encStride, State.encDepth, State.encodes4]

/-- The bytes that a unit leaves in memory at o. -/
theorem State.holdsOut_outWriteList (s : State) (u : List Byte) :
    s.holdsOut { s with mem := (s.outWriteList s.eng.o.toNat u).mem } s.eng.o.toNat u := by
  intro a
  rw [← State.outWriteList_eq, State.memByte_outWriteList]

/-- The outcomes of an emitted unit of a row. -/
theorem State.emitUnit_outcomes {s : State} (hr : s.encoding) (hraces : s.plat.races = []) (u : List Byte)
    (pixels items : Nat) :
    if s.cfg.outLen.toNat < s.eng.o.toNat + u.length then s.emitUnit u pixels items = .next (s.ended .bufferOverflow)
    else ∃ m, s.emitUnit u pixels items = .next (s.afterEmit m u.length pixels items) ∧
      s.holdsOut { s with mem := m } s.eng.o.toNat u := by
  rw [State.emitUnit, State.withinEncoder_of_running hr]
  split
  · rename_i hroom
    rw [State.emit_none hroom, ← State.raise_of_no_races hraces]
  · rename_i hroom
    rw [State.emit_some (not_lt.mp hroom), State.outWriteList_eq]
    exact ⟨_, rfl, s.holdsOut_outWriteList u⟩

/-- Settles O29: a run is a unit of two bytes. -/
theorem emitRun : Obligations.EmitRun := by
  intro c v s hr hraces
  rw [exec_encRun, State.runItems_eq]
  exact State.emitUnit_outcomes hr hraces [c, v] _ _

theorem absBytes_length (n : Byte) (data : List Byte) :
    (absBytes n data).length = 2 + data.length + data.length % 2 := by
  simp only [absBytes, padBytes, List.cons_append, List.length_cons, List.length_append, List.length_replicate]
  omega

/-- Settles O30: an absolute run is a unit of its head, its data and its pad. -/
theorem emitAbs : Obligations.EmitAbs := by
  intro n data s hr hraces
  rw [exec_encAbs, ← absBytes_length n data]
  exact State.emitUnit_outcomes hr hraces (absBytes n data) _ _

/-- Two encoded runs of one pixel each, in a row of pixels (spec/43_rle_encode.md R288). -/
theorem exec_encShort_two {s : State} (h4 : s.encodes4 = false) (v w : Byte) :
    exec (.encShort 1 v (some w)) s = s.emitUnit [1, v, 1, w] 2 2 := by
  simp [exec_encShort, State.runItems, h4, shortSecond]

/-- Settles O31: a short literal is one unit, of one encoded run or of two. -/
theorem emitShort : Obligations.EmitShort := by
  intro c v w s hraces
  refine ⟨fun hr => ?_, fun hr => ?_⟩
  · rw [exec_encShort, State.runItems_eq]
    exact State.emitUnit_outcomes hr hraces [c, v] _ _
  · rw [exec_encShort_two (State.encodes4_of_rle8 hr)]
    exact State.emitUnit_outcomes (.inl hr) hraces [1, v, 1, w] _ _

/-! ### The end of a row -/

/-- The next row opens (spec/43_rle_encode.md R280, spec/10_state.md R57, R61). -/
def State.nextRow (s : State) : State :=
  { s with
    eng := { s.eng with r := .ofNat 32 (s.eng.r.toNat + 1), i := 0, cnt := 0 }
    pos := { s.pos with
      inPos := .ofNat 32 ((s.eng.r.toNat + 1) * s.encStride), curX := 0, curY := .ofNat 32 (s.eng.r.toNat + 1) } }

/-- The stream is complete (spec/43_rle_encode.md R280). -/
def State.endEncode (s : State) : State :=
  State.finish { s with pos := { s.pos with inPos := .ofNat 32 (s.cfg.height.toNat * s.encStride) } }

theorem exec_encEol (s : State) : exec .encEol s = endRow [0, 0] State.nextRow s := rfl

theorem exec_encEob (s : State) : exec .encEob s = endRow [0, 1] State.endEncode s := rfl

theorem endRow_countMismatch {s : State} (hr : s.encoding) (hraces : s.plat.races = []) (h : s.eng.cnt ≠ s.cfg.width)
    (unit : List Byte) (next : State → State) : endRow unit next s = .next (s.ended .encCountMismatch) := by
  rw [endRow, State.withinEncoder_of_running hr, if_pos h, State.raise_of_no_races hraces]

theorem endRow_bufferOverflow {s : State} (hr : s.encoding) (hraces : s.plat.races = []) (h : s.eng.cnt = s.cfg.width)
    {unit : List Byte} (hroom : s.cfg.outLen.toNat < s.eng.o.toNat + unit.length) (next : State → State) :
    endRow unit next s = .next (s.ended .bufferOverflow) := by
  rw [endRow, State.withinEncoder_of_running hr, if_neg (not_not.mpr h), State.emit_none hroom,
    ← State.raise_of_no_races hraces]

theorem endRow_emits {s : State} (hr : s.encoding) (h : s.eng.cnt = s.cfg.width) {unit : List Byte}
    (hroom : s.eng.o.toNat + unit.length ≤ s.cfg.outLen.toNat) (next : State → State) :
    ∃ m, endRow unit next s = .next (next { s with
        mem := m
        eng := { s.eng with o := .ofNat 32 (s.eng.o.toNat + unit.length) }
        pos := { s.pos with outPos := .ofNat 32 (s.eng.o.toNat + unit.length) } }) ∧
      s.holdsOut { s with mem := m } s.eng.o.toNat unit := by
  rw [endRow, State.withinEncoder_of_running hr, if_neg (not_not.mpr h), State.emit_some hroom, State.outWriteList_eq]
  exact ⟨_, rfl, s.holdsOut_outWriteList unit⟩

/-- Settles O32: the count check, then the room, then the pair and what follows it. -/
theorem emitRowEnd : Obligations.EmitRowEnd := by
  intro s hr hraces
  dsimp only
  rw [exec_encEol, exec_encEob, ← State.encStride_eq]
  split
  · exact ⟨endRow_countMismatch hr hraces ‹_› _ _, endRow_countMismatch hr hraces ‹_› _ _⟩
  · rename_i hcnt
    rw [not_not] at hcnt
    split
    · exact ⟨endRow_bufferOverflow hr hraces hcnt ‹_› _, endRow_bufferOverflow hr hraces hcnt ‹_› _⟩
    · rename_i hroom
      refine ⟨endRow_emits hr hcnt (unit := [0, 0]) (not_lt.mp hroom) State.nextRow, ?_⟩
      obtain ⟨m, hexec, hmem⟩ := endRow_emits hr hcnt (unit := [0, 1]) (not_lt.mp hroom) State.endEncode
      exact ⟨m, hexec.trans (congrArg _ (State.finish_of_no_races hraces)), hmem⟩

end Sys2Proof.Machine
end

section
/-!
PROOF. The encoders' choice (spec/43_rle_encode.md R283, R285). What the encoder counts, `runAt` and `literalAt`, is the
run and the literal stretch that the spec speaks of (`IsRunAt`, `IsLiteralAt`), as long as every place of the step reads the
same items, which is so without races.
-/

namespace Sys2Proof.Machine

/-! ### Runs and literal stretches -/

section
variable {item : Nat → Nat → Byte} {v : Nat → Byte} {cap minRun width : Nat}

/-- What the encoder counts as the run at an item of the row is a run there. -/
theorem isRunAt_runAt (hitem : ∀ p, item p = v) (hcap : 0 < cap) {j : Nat} (hj : j < width) :
    IsRunAt v cap width j (runAt item cap width j) := by
  refine ⟨runAt_pos hcap hj, runAt_le item cap width j, fun t ht => ?_, fun hlt => ?_⟩
  · simpa only [hitem] using equalCount_items ht
  · simpa only [runAt, hitem] using equalCount_stop hlt

/-- An item of the row starts one longest run. -/
theorem IsRunAt.unique {j k l : Nat} (hk : IsRunAt v cap width j k) (hl : IsRunAt v cap width j l) : k = l := by
  obtain ⟨-, hkle, hkeq, hkstop⟩ := hk
  obtain ⟨-, hlle, hleq, hlstop⟩ := hl
  obtain hlt | rfl | hgt := Nat.lt_trichotomy k l
  · exact absurd (hleq k hlt) (hkstop (by omega))
  · rfl
  · exact absurd (hkeq l hgt) (hlstop (by omega))

theorem IsRunAt.runAt_eq (hitem : ∀ p, item p = v) {j k : Nat} (h : IsRunAt v cap width j k) :
    runAt item cap width j = k := by
  obtain ⟨hk, hle, -⟩ := id h
  exact (isRunAt_runAt hitem (by omega) (by omega)).unique h

/-- What the encoder counts as the literal stretch at i is one there. -/
theorem isLiteralAt_literalAt (hitem : ∀ p, item p = v) (hcap : 0 < cap) (i : Nat) :
    IsLiteralAt v cap minRun width i (literalAt item cap minRun width i) := by
  have hle := literalAt_le item cap minRun width i
  refine ⟨hle, fun t ht => ⟨_, literalCount_items ht, isRunAt_runAt hitem hcap (by omega)⟩, fun hlt => ?_⟩
  exact ⟨_, literalCount_stop hlt, isRunAt_runAt hitem hcap (by omega)⟩

/-- A literal stretch ends where the first run of the minimum length starts, or at its bound. -/
theorem IsLiteralAt.unique {i m n : Nat} (hm : IsLiteralAt v cap minRun width i m)
    (hn : IsLiteralAt v cap minRun width i n) : m = n := by
  have hnot {a b : Nat} (ha : IsLiteralAt v cap minRun width i a) (hb : IsLiteralAt v cap minRun width i b) :
      ¬ a < b := by
    intro hab
    obtain ⟨k, hk, hrun⟩ := hb.2.1 a hab
    obtain ⟨l, hl, hrun'⟩ := ha.2.2 (hab.trans_le hb.1)
    have := hrun.unique hrun'
    omega
  exact Nat.le_antisymm (not_lt.mp (hnot hn hm)) (not_lt.mp (hnot hm hn))

theorem IsLiteralAt.literalAt_eq (hitem : ∀ p, item p = v) {i n : Nat} (hcap : 0 < cap)
    (h : IsLiteralAt v cap minRun width i n) : literalAt item cap minRun width i = n :=
  (isLiteralAt_literalAt hitem hcap i).unique h

/-- The first item of a literal stretch starts no run of the minimum length. -/
theorem IsLiteralAt.runAt_lt (hitem : ∀ p, item p = v) {i n : Nat} (hn : 1 ≤ n)
    (h : IsLiteralAt v cap minRun width i n) : runAt item cap width i < minRun := by
  obtain ⟨k, hk, hrun⟩ := h.2.1 0 hn
  rw [Nat.add_zero] at hrun
  rwa [hrun.runAt_eq hitem]

/-- A short run at i leaves the literal stretch at least one item. -/
theorem literalAt_pos {i : Nat} (hcap : 0 < cap) (hi : i < width) (h : runAt item cap width i < minRun) :
    1 ≤ literalAt item cap minRun width i := by
  by_contra h0
  have hzero : literalCount item cap minRun width i (min cap (width - i)) = 0 := by
    rw [literalAt] at h0
    omega
  have hstop := literalCount_stop (item := item) (cap := cap) (minRun := minRun) (width := width) (j := i)
    (fuel := min cap (width - i)) (by omega)
  rw [hzero, Nat.add_zero] at hstop
  omega

/-- At an item of the row there is a run of the minimum length or a literal stretch. -/
theorem exists_run_or_literal (v : Nat → Byte) (hcap : 0 < cap) (minRun : Nat) {i : Nat} (hi : i < width) :
    (∃ k, minRun ≤ k ∧ IsRunAt v cap width i k) ∨ ∃ n, 1 ≤ n ∧ IsLiteralAt v cap minRun width i n := by
  have hitem : ∀ p, (fun _ => v : Nat → Nat → Byte) p = v := fun _ => rfl
  rcases Nat.lt_or_ge (runAt (fun _ => v) cap width i) minRun with h | h
  · exact .inr ⟨_, literalAt_pos hcap hi h, isLiteralAt_literalAt hitem hcap i⟩
  · exact .inl ⟨_, h, isRunAt_runAt hitem hcap hi⟩

end

/-! ### The items of the row in memory -/

/-- Pixel j of the encoder's row at 8 bpp: input byte r·S + j. -/
def State.rowPixel (s : State) (j : Nat) : Byte :=
  s.memByte (s.cfg.inBase.toNat + (s.eng.r.toNat * stride .d8 s.cfg.width.toNat + j))

/-- Byte j of the encoder's row at 4 bpp: input byte r·S + j, the pad nibble of an odd width as 0 (R284). -/
def State.rowByte (s : State) (j : Nat) : Byte :=
  let e := s.memByte (s.cfg.inBase.toNat + (s.eng.r.toNat * stride .d4 s.cfg.width.toNat + j))
  if s.cfg.width.toNat % 2 = 1 ∧ j + 1 = rowBytes4 s.cfg.width.toNat then e &&& 0xF0 else e

/-- Without races every place of a step reads the row's pixels in memory. -/
theorem State.px_of_no_races {s : State} (h : s.plat.races = []) (place : Nat) : s.px place = s.rowPixel :=
  funext fun _ => s.inRead_of_no_races h place _

theorem State.by4_of_no_races {s : State} (h : s.plat.races = []) (place : Nat) : s.by4 place = s.rowByte :=
  funext fun j => by simp only [State.by4, State.rowByte, State.inRead_of_no_races h]

/-! ### The choice of ENC_RLE8 (R283) -/

theorem State.choose8_of_run {s : State} {k : Nat} (hk : 3 ≤ k)
    (h : runAt s.px 255 s.cfg.width.toNat s.eng.i.toNat = k) :
    s.choose8 = .encRun (.ofNat 8 k) (s.px 0 s.eng.i.toNat) := by
  subst h
  exact if_pos hk

theorem State.choose8_of_literal {s : State} {n : Nat} (h : runAt s.px 255 s.cfg.width.toNat s.eng.i.toNat < 3)
    (hn : literalAt s.px 255 3 s.cfg.width.toNat s.eng.i.toNat = n) :
    s.choose8 =
      if 3 ≤ n then .encAbs (.ofNat 8 n) (itemsFrom (s.px 0) s.eng.i.toNat n)
      else if n = 2 ∧ s.px 0 s.eng.i.toNat ≠ s.px 0 (s.eng.i.toNat + 1) then
        .encShort 1 (s.px 0 s.eng.i.toNat) (some (s.px 0 (s.eng.i.toNat + 1)))
      else .encShort (.ofNat 8 n) (s.px 0 s.eng.i.toNat) none := by
  subst hn
  exact if_neg (not_le.mpr h)

theorem State.nextUnit_rle8 {s : State} (h4 : s.encodes4 = false) (hi : s.eng.i.toNat < s.cfg.width.toNat) :
    s.nextUnit = s.choose8 := by
  simp [State.nextUnit, State.rowItems, h4, hi]

/-- A run of 3 pixels or more is emitted as a run. -/
theorem State.choose8_run {s : State} (hraces : s.plat.races = []) {k : Nat} (hk : 3 ≤ k)
    (h : IsRunAt s.rowPixel 255 s.cfg.width.toNat s.eng.i.toNat k) :
    s.choose8 = .encRun (.ofNat 8 k) (s.rowPixel s.eng.i.toNat) := by
  rw [State.choose8_of_run hk (h.runAt_eq (State.px_of_no_races hraces)), State.px_of_no_races hraces]

/-- A literal stretch is emitted as an absolute run, or as one or two encoded runs. -/
theorem State.choose8_literal {s : State} (hraces : s.plat.races = []) {n : Nat} (hn : 1 ≤ n)
    (h : IsLiteralAt s.rowPixel 255 3 s.cfg.width.toNat s.eng.i.toNat n) :
    s.choose8 =
      if 3 ≤ n then .encAbs (.ofNat 8 n) (itemsFrom s.rowPixel s.eng.i.toNat n)
      else if n = 2 ∧ s.rowPixel s.eng.i.toNat ≠ s.rowPixel (s.eng.i.toNat + 1) then
        .encShort 1 (s.rowPixel s.eng.i.toNat) (some (s.rowPixel (s.eng.i.toNat + 1)))
      else .encShort (.ofNat 8 n) (s.rowPixel s.eng.i.toNat) none := by
  have hpx := State.px_of_no_races hraces
  rw [State.choose8_of_literal (h.runAt_lt hpx hn) (h.literalAt_eq hpx (by omega)), hpx]

/-- Settles O33: the encoder's counts are the run and the literal stretch of the row in memory. -/
theorem chooseRle8 : Obligations.ChooseRle8 := by
  intro s hraces hr hi
  dsimp only
  rw [State.nextUnit_rle8 (State.encodes4_of_rle8 hr) hi]
  exact ⟨fun k => State.choose8_run hraces, fun n => State.choose8_literal hraces,
    exists_run_or_literal s.rowPixel (by omega) 3 hi⟩

/-! ### The choice of ENC_RLE4 (R284, R285) -/

theorem State.choose4_of_run {s : State} {k : Nat} (hk : 2 ≤ k)
    (h : runAt s.by4 127 (rowBytes4 s.cfg.width.toNat) s.eng.i.toNat = k) :
    s.choose4 = .encRun (.ofNat 8 (nib s.cfg.width.toNat s.eng.i.toNat k)) (s.by4 0 s.eng.i.toNat) := by
  subst h
  exact if_pos hk

theorem State.choose4_of_literal {s : State} {m : Nat}
    (h : runAt s.by4 127 (rowBytes4 s.cfg.width.toNat) s.eng.i.toNat < 2)
    (hm : literalAt s.by4 127 2 (rowBytes4 s.cfg.width.toNat) s.eng.i.toNat = m) :
    s.choose4 =
      if 3 ≤ nib s.cfg.width.toNat s.eng.i.toNat m then
        .encAbs (.ofNat 8 (nib s.cfg.width.toNat s.eng.i.toNat m)) (itemsFrom (s.by4 0) s.eng.i.toNat m)
      else .encShort (.ofNat 8 (nib s.cfg.width.toNat s.eng.i.toNat m)) (s.by4 0 s.eng.i.toNat) none := by
  subst hm
  exact if_neg (not_le.mpr h)

theorem State.nextUnit_rle4 {s : State} (h4 : s.encodes4 = true) (hi : s.eng.i.toNat < rowBytes4 s.cfg.width.toNat) :
    s.nextUnit = s.choose4 := by
  simp [State.nextUnit, State.rowItems, h4, hi]

/-- A run of 2 bytes or more is emitted as a run of their pixels. -/
theorem State.choose4_run {s : State} (hraces : s.plat.races = []) {k : Nat} (hk : 2 ≤ k)
    (h : IsRunAt s.rowByte 127 (rowBytes4 s.cfg.width.toNat) s.eng.i.toNat k) :
    s.choose4 = .encRun (.ofNat 8 (nib s.cfg.width.toNat s.eng.i.toNat k)) (s.rowByte s.eng.i.toNat) := by
  rw [State.choose4_of_run hk (h.runAt_eq (State.by4_of_no_races hraces)), State.by4_of_no_races hraces]

/-- A literal stretch is emitted as an absolute run, or as one encoded run. -/
theorem State.choose4_literal {s : State} (hraces : s.plat.races = []) {m : Nat} (hm : 1 ≤ m)
    (h : IsLiteralAt s.rowByte 127 2 (rowBytes4 s.cfg.width.toNat) s.eng.i.toNat m) :
    s.choose4 =
      if 3 ≤ nib s.cfg.width.toNat s.eng.i.toNat m then
        .encAbs (.ofNat 8 (nib s.cfg.width.toNat s.eng.i.toNat m)) (itemsFrom s.rowByte s.eng.i.toNat m)
      else .encShort (.ofNat 8 (nib s.cfg.width.toNat s.eng.i.toNat m)) (s.rowByte s.eng.i.toNat) none := by
  have hby := State.by4_of_no_races hraces
  rw [State.choose4_of_literal (h.runAt_lt hby hm) (h.literalAt_eq hby (by omega)), hby]

/-- Settles O34: the encoder's counts are the run and the literal stretch of the row's bytes in memory. -/
theorem chooseRle4 : Obligations.ChooseRle4 := by
  intro s hraces hr hi
  dsimp only
  rw [State.nextUnit_rle4 (State.encodes4_of_rle4 hr) hi]
  exact ⟨fun k => State.choose4_run hraces, fun m => State.choose4_literal hraces,
    exists_run_or_literal s.rowByte (by omega) 2 hi⟩

end Sys2Proof.Machine
end

section
/-!
PROOF. What an encoder emits for a stretch of the row are RLE units whose pixels are the stretch's (spec/43_rle_encode.md
R292, R283 to R288). The unit chosen is a run, all of whose items are equal, or a literal stretch, whose items are its data.
-/

namespace Sys2Proof.Machine

/-! ### Items of the row -/

theorem itemsFrom_of_equal {v : Nat → Byte} {i n : Nat} (h : ∀ t < n, v (i + t) = v i) :
    itemsFrom v i n = List.replicate n (v i) := by
  refine List.eq_replicate_iff.mpr ⟨itemsFrom_length v i n, fun b hb => ?_⟩
  obtain ⟨t, ht, rfl⟩ := List.mem_map.mp hb
  exact h t (List.mem_range.mp ht)

theorem itemsFrom_getD (v : Nat → Byte) (i : Nat) {n t : Nat} (h : t < n) : (itemsFrom v i n).getD t 0 = v (i + t) := by
  simp [itemsFrom, h]

/-- A count of 1 to 255 is a byte's value and not 0. -/
theorem ofNat_byte_bne_zero {n : Nat} (hn : 1 ≤ n) (h : n ≤ 255) : (BitVec.ofNat 8 n != 0) = true := by
  have hne : BitVec.ofNat 8 n ≠ 0 := fun h0 => by
    have := toNat_ofNat_byte h
    simp [h0] at this
    omega
  simpa using hne

/-! ### RLE8 -/

/-- The bytes bs are those of RLE8 units whose pixels are ps. -/
def DecodesRle8 (tbl : G3Table) (bs ps : List Byte) : Prop :=
  ∃ units : List Instr, (∀ u ∈ units, u.wellFormed = true ∧ u.context = .rle .rle8) ∧
    bs = (units.map fun u => (encode tbl u).toBytes).flatten ∧ (units.map unitPixels8).flatten = ps

section
variable {tbl : G3Table}

theorem DecodesRle8.append {bs ps bs' ps' : List Byte} (h : DecodesRle8 tbl bs ps) (h' : DecodesRle8 tbl bs' ps') :
    DecodesRle8 tbl (bs ++ bs') (ps ++ ps') := by
  obtain ⟨us, hus, rfl, rfl⟩ := h
  obtain ⟨us', hus', rfl, rfl⟩ := h'
  exact ⟨us ++ us', List.forall_mem_append.mpr ⟨hus, hus'⟩, by simp, by simp⟩

theorem decodesRle8_run {n : Nat} (hn : 1 ≤ n) (h : n ≤ 255) (v : Byte) :
    DecodesRle8 tbl [.ofNat 8 n, v] (List.replicate n v) := by
  refine ⟨[.rle8Run (.ofNat 8 n) v], ?_, rfl, ?_⟩
  · rintro u hu
    rw [List.mem_singleton.mp hu]
    exact ⟨ofNat_byte_bne_zero hn h, rfl⟩
  · simp [unitPixels8, Nat.mod_eq_of_lt (show n < 256 by omega)]

theorem decodesRle8_abs {n : Nat} (hn : 3 ≤ n) (h : n ≤ 255) {data : List Byte} (hd : data.length = n) :
    DecodesRle8 tbl (absBytes (.ofNat 8 n) data) data := by
  have hc := toNat_ofNat_byte h
  refine ⟨[.rle8Abs (.ofNat 8 n) data], ?_, List.flatten_singleton.symm, ?_⟩
  · rintro u hu
    rw [List.mem_singleton.mp hu]
    simp [Instr.wellFormed, Instr.context, absWellFormed, Rle.dataBytes, hc, hn, hd]
  · rw [List.map_singleton, List.flatten_singleton, unitPixels8, hc, ← hd, List.take_length]

/-- The bytes of ENC_RLE8's next unit are those of RLE8 units for the next n pixels of the row. -/
theorem State.choose8_decodes {s : State} (hraces : s.plat.races = []) (hi : s.eng.i.toNat < s.cfg.width.toNat) :
    ∃ n, 1 ≤ n ∧ s.eng.i.toNat + n ≤ s.cfg.width.toNat ∧
      DecodesRle8 s.g3 (encode s.g3 s.choose8).toBytes (itemsFrom s.rowPixel s.eng.i.toNat n) := by
  obtain ⟨k, hk, hrun⟩ | ⟨n, hn, hlit⟩ := exists_run_or_literal s.rowPixel (cap := 255) (by omega) 3 hi
  · obtain ⟨-, hle, heq, -⟩ := id hrun
    refine ⟨k, by omega, by omega, ?_⟩
    rw [State.choose8_run hraces hk hrun, itemsFrom_of_equal heq]
    exact decodesRle8_run (by omega) (by omega) _
  · have hle := hlit.1
    refine ⟨n, hn, by omega, ?_⟩
    rw [State.choose8_literal hraces hn hlit]
    split
    · exact decodesRle8_abs ‹_› (by omega) (itemsFrom_length _ _ _)
    · split
      · rename_i htwo
        obtain ⟨rfl, -⟩ := htwo
        exact (decodesRle8_run le_rfl (by omega) _).append (decodesRle8_run le_rfl (by omega) _)
      · rename_i hshort htwo
        have heq : ∀ t < n, s.rowPixel (s.eng.i.toNat + t) = s.rowPixel s.eng.i.toNat := by
          intro t ht
          obtain rfl | ⟨rfl, rfl⟩ : t = 0 ∨ (t = 1 ∧ n = 2) := by omega
          · rfl
          · by_contra hne
            exact htwo ⟨rfl, Ne.symm hne⟩
        rw [itemsFrom_of_equal heq]
        exact decodesRle8_run hn (by omega) _

end

/-! ### RLE4 -/

/-- The nibble of a byte that holds the pixel of an even x, or of an odd x (spec/30_encoding.md R125). -/
def nibbleOf (e : Byte) (x : Nat) : Nibble := if x % 2 = 0 then e.extractLsb' 4 4 else e.extractLsb' 0 4

theorem nibbleOf_two_mul_add (e : Byte) (i t : Nat) : nibbleOf e (2 * i + t) = nibbleOf e t := by
  simp [nibbleOf]

theorem runPixels4_nibbles (c : Nat) (e : Byte) :
    runPixels4 c (e.extractLsb' 4 4) (e.extractLsb' 0 4) = (List.range c).map (nibbleOf e) := rfl

theorem absPixels4_eq (n : Nat) (data : List Byte) :
    absPixels4 n data = (List.range n).map fun t => nibbleOf (data.getD (t / 2) 0) t := rfl

/-- A byte is its two nibbles (R125). -/
theorem nibbles_extract (e : Byte) : nibbles (e.extractLsb' 4 4) (e.extractLsb' 0 4) = e := by
  revert e
  decide

/-- A pixel of the row is a nibble of the row's byte that holds it; the pad nibble is none. -/
theorem State.rowNibble_eq {s : State} {x : Nat} (hx : x < s.cfg.width.toNat) :
    s.rowNibble x = nibbleOf (s.rowByte (x / 2)) x := by
  unfold State.rowByte
  dsimp only
  split
  · rename_i hpad
    have heven : x % 2 = 0 := by
      have := hpad.2
      unfold rowBytes4 at this
      omega
    have hmask (e : Byte) : (e &&& 0xF0).extractLsb' 4 4 = e.extractLsb' 4 4 := by
      revert e
      decide
    simp only [State.rowNibble, nibbleOf, heven, if_true, hmask]
  · rfl

/-- The next n pixels of the row, from byte i on, are nibbles of its bytes. -/
theorem State.rowNibbles_eq {s : State} {i n : Nat} (h : 2 * i + n ≤ s.cfg.width.toNat) :
    ((List.range n).map fun t => s.rowNibble (2 * i + t)) =
      (List.range n).map fun t => nibbleOf (s.rowByte (i + t / 2)) t := by
  refine List.map_congr_left fun t ht => ?_
  have hdiv : (2 * i + t) / 2 = i + t / 2 := by omega
  rw [State.rowNibble_eq (by have := List.mem_range.mp ht; omega), hdiv, nibbleOf_two_mul_add]

/-- The pixels of equal bytes are the nibbles of the first. -/
theorem State.rowNibbles_eq_of_equal {s : State} {i n : Nat} (h : 2 * i + n ≤ s.cfg.width.toNat)
    (heq : ∀ t, 2 * t < n → s.rowByte (i + t) = s.rowByte i) :
    ((List.range n).map fun t => s.rowNibble (2 * i + t)) = (List.range n).map (nibbleOf (s.rowByte i)) := by
  rw [State.rowNibbles_eq h]
  refine List.map_congr_left fun t ht => ?_
  rw [heq (t / 2) (by have := List.mem_range.mp ht; omega)]

/-- The pixels of m bytes are the nibbles of a list of them. -/
theorem State.rowNibbles_eq_itemsFrom {s : State} {i n m : Nat} (h : 2 * i + n ≤ s.cfg.width.toNat) (hm : n ≤ 2 * m) :
    ((List.range n).map fun t => s.rowNibble (2 * i + t)) =
      (List.range n).map fun t => nibbleOf ((itemsFrom s.rowByte i m).getD (t / 2) 0) t := by
  rw [State.rowNibbles_eq h]
  refine List.map_congr_left fun t ht => ?_
  rw [itemsFrom_getD _ _ (by have := List.mem_range.mp ht; omega)]

/-- The bytes bs are those of an RLE4 unit whose pixels are ps. -/
def DecodesRle4 (tbl : G3Table) (bs : List Byte) (ps : List Nibble) : Prop :=
  ∃ u : Instr, u.wellFormed = true ∧ u.context = .rle .rle4 ∧ bs = (encode tbl u).toBytes ∧ unitPixels4 u = ps

section
variable {tbl : G3Table}

theorem decodesRle4_run {n : Nat} (hn : 1 ≤ n) (h : n ≤ 255) (e : Byte) :
    DecodesRle4 tbl [.ofNat 8 n, e] ((List.range n).map (nibbleOf e)) := by
  refine ⟨.rle4Run (.ofNat 8 n) (e.extractLsb' 4 4) (e.extractLsb' 0 4), ofNat_byte_bne_zero hn h, rfl, ?_, ?_⟩
  · show [BitVec.ofNat 8 n, e] = [BitVec.ofNat 8 n, nibbles (e.extractLsb' 4 4) (e.extractLsb' 0 4)]
    rw [nibbles_extract]
  · rw [unitPixels4, toNat_ofNat_byte h, runPixels4_nibbles]

theorem decodesRle4_abs {n : Nat} (hn : 3 ≤ n) (h : n ≤ 255) {data : List Byte} (hd : data.length = (n + 1) / 2) :
    DecodesRle4 tbl (absBytes (.ofNat 8 n) data) ((List.range n).map fun t => nibbleOf (data.getD (t / 2) 0) t) := by
  have hc := toNat_ofNat_byte h
  refine ⟨.rle4Abs (.ofNat 8 n) data, ?_, rfl, rfl, ?_⟩
  · simp [Instr.wellFormed, absWellFormed, Rle.dataBytes, hc, hn, hd]
  · rw [unitPixels4, hc, absPixels4_eq]

/-- k bytes inside the row hold pixels inside the width. -/
theorem two_mul_add_nib_le {width i k : Nat} (hk : 1 ≤ k) (h : i + k ≤ rowBytes4 width) :
    1 ≤ nib width i k ∧ 2 * i + nib width i k ≤ width := by
  unfold nib rowBytes4 at *
  split <;> omega

/-- The bytes of ENC_RLE4's next unit are those of an RLE4 unit for the next n pixels of the row. -/
theorem State.choose4_decodes {s : State} (hraces : s.plat.races = [])
    (hi : s.eng.i.toNat < rowBytes4 s.cfg.width.toNat) :
    ∃ n, 1 ≤ n ∧ 2 * s.eng.i.toNat + n ≤ s.cfg.width.toNat ∧
      DecodesRle4 s.g3 (encode s.g3 s.choose4).toBytes
        ((List.range n).map fun t => s.rowNibble (2 * s.eng.i.toNat + t)) := by
  obtain ⟨k, hk, hrun⟩ | ⟨m, hm, hlit⟩ := exists_run_or_literal s.rowByte (cap := 127) (by omega) 2 hi
  · obtain ⟨-, hle, heq, -⟩ := id hrun
    obtain ⟨hn, hw⟩ := two_mul_add_nib_le (k := k) (by omega)
      (show s.eng.i.toNat + k ≤ rowBytes4 s.cfg.width.toNat by omega)
    have hle2 := (nib_spec (k := k) hi).2
    refine ⟨_, hn, hw, ?_⟩
    rw [State.choose4_run hraces hk hrun, State.rowNibbles_eq_of_equal hw fun t ht => heq t (by omega)]
    exact decodesRle4_run hn (by omega) _
  · have hle := hlit.1
    obtain ⟨hn, hw⟩ := two_mul_add_nib_le hm (show s.eng.i.toNat + m ≤ rowBytes4 s.cfg.width.toNat by omega)
    obtain ⟨hbytes, hle2⟩ := nib_spec (k := m) hi
    refine ⟨_, hn, hw, ?_⟩
    rw [State.choose4_literal hraces hm hlit]
    split
    · rw [State.rowNibbles_eq_itemsFrom hw hle2]
      exact decodesRle4_abs ‹_› (by omega) ((itemsFrom_length _ _ _).trans hbytes.symm)
    · obtain rfl : m = 1 := by omega
      rw [State.rowNibbles_eq_of_equal hw fun t ht => by rw [show t = 0 by omega, Nat.add_zero]]
      exact decodesRle4_run hn (by omega) _

end

/-- Settles O35: the bytes of the unit chosen are those of RLE units for the row's next pixels. -/
theorem emittedUnitsDecode : Obligations.EmittedUnitsDecode := by
  intro s hraces
  refine ⟨fun hr hi => ?_, fun hr hi => ?_⟩
  · obtain ⟨n, hn, hw, units, hunits, hbytes, hpixels⟩ := State.choose8_decodes hraces hi
    rw [State.nextUnit_rle8 (State.encodes4_of_rle8 hr) hi]
    exact ⟨units, n, hn, hw, hunits, hbytes, hpixels⟩
  · obtain ⟨n, hn, hw, u, hwf, hctx, hbytes, hpixels⟩ := State.choose4_decodes hraces hi
    rw [State.nextUnit_rle4 (State.encodes4_of_rle4 hr) hi]
    exact ⟨u, n, hn, hw, hwf, hctx, hbytes, hpixels⟩

end Sys2Proof.Machine
end

section
/-!
PROOF. What a step of an encoder does (spec/43_rle_encode.md R280, R282, R289): it emits a unit of the row, opens the next
row, completes the stream, or finds no room (`State.EncodeStep`). A row ends with its count at the width (R290), a unit
costs at most two bytes a pixel, so H·(2W + 2) bytes are room enough, and each step takes an item of a row or ends one, so
W + 1 steps a row are enough (R293).
-/

namespace Sys2Proof.Machine

/-! ### The units of a row -/

/-- A unit of len bytes for so many pixels in so many items of the row: it fits the row, takes at least an item, and costs
at most two bytes a pixel. -/
structure State.UnitFits (s : State) (len pixels items : Nat) : Prop where
  row : s.fitsRow pixels items
  pos : 1 ≤ items
  short : len ≤ 2 * pixels

/-- The instruction emits such a unit. -/
def State.EmitsInRow (s : State) (i : Instr) : Prop :=
  ∃ u pixels items, exec i s = s.emitUnit u pixels items ∧ s.UnitFits u.length pixels items

section
variable {s : State} {c : Byte} {n items : Nat}

theorem State.emitsInRow_run (hc : c.toNat = n) (hitems : s.runItems n = items) (hfit : s.fitsRow n items)
    (hn : 1 ≤ n) (hpos : 1 ≤ items) (v : Byte) : s.EmitsInRow (.encRun c v) := by
  refine ⟨[c, v], n, items, ?_, hfit, hpos, Nat.mul_le_mul_left 2 hn⟩
  rw [exec_encRun, hc, hitems]

/-- A short literal of one run is emitted as that run. -/
theorem State.emitsInRow_short (hc : c.toNat = n) (hitems : s.runItems n = items) (hfit : s.fitsRow n items)
    (hn : 1 ≤ n) (hpos : 1 ≤ items) (v : Byte) : s.EmitsInRow (.encShort c v none) := by
  obtain ⟨u, pixels, k, hexec, hu⟩ := State.emitsInRow_run hc hitems hfit hn hpos v
  exact ⟨u, pixels, k, hexec, hu⟩

theorem State.emitsInRow_abs {data : List Byte} (hc : c.toNat = n) (hfit : s.fitsRow n data.length) (hn : 3 ≤ n)
    (hpos : 1 ≤ data.length) (hle : data.length ≤ n) : s.EmitsInRow (.encAbs c data) := by
  refine ⟨absBytes c data, n, data.length, ?_, hfit, hpos, ?_⟩
  · rw [exec_encAbs, hc]
  · rw [absBytes_length]
    omega

end

/-- The unit that ENC_RLE8 chooses (R283). -/
theorem State.emitsInRow_choose8 {s : State} (h4 : s.encodes4 = false) (hi : s.eng.i.toNat < s.cfg.width.toNat)
    (hcnt : s.eng.cnt.toNat = s.pixelsOf s.eng.i.toNat) : s.EmitsInRow s.choose8 := by
  have hfit {n : Nat} (hn : n ≤ min 255 (s.cfg.width.toNat - s.eng.i.toNat)) : s.fitsRow n n :=
    State.fitsRow_rle8 h4 hcnt (by omega)
  have hitems (n : Nat) : s.runItems n = n := by simp [State.runItems, h4]
  rcases Nat.lt_or_ge (runAt s.px 255 s.cfg.width.toNat s.eng.i.toNat) 3 with hrun | hrun
  · have hn := literalAt_pos (by omega) hi hrun
    have hle := literalAt_le s.px 255 3 s.cfg.width.toNat s.eng.i.toNat
    rw [State.choose8_of_literal hrun rfl]
    generalize literalAt s.px 255 3 s.cfg.width.toNat s.eng.i.toNat = n at hn hle ⊢
    have hc : (BitVec.ofNat 8 n).toNat = n := toNat_ofNat_byte (by omega)
    split
    · exact State.emitsInRow_abs hc (by rw [itemsFrom_length]; exact hfit hle) ‹_› (by rwa [itemsFrom_length])
        (by rw [itemsFrom_length])
    · split
      · exact ⟨_, 2, 2, exec_encShort_two h4 _ _, hfit (by omega), by omega, le_rfl⟩
      · exact State.emitsInRow_short hc (hitems n) (hfit hle) hn hn _
  · have hle := runAt_le s.px 255 s.cfg.width.toNat s.eng.i.toNat
    rw [State.choose8_of_run hrun rfl]
    exact State.emitsInRow_run (toNat_ofNat_byte (by omega)) (hitems _) (hfit hle) (by omega) (by omega) _

/-- The unit that ENC_RLE4 chooses (R284, R285). -/
theorem State.emitsInRow_choose4 {s : State} (h4 : s.encodes4 = true) (hi : s.eng.i.toNat < rowBytes4 s.cfg.width.toNat)
    (hcnt : s.eng.cnt.toNat = s.pixelsOf s.eng.i.toNat) : s.EmitsInRow s.choose4 := by
  have hfit {k : Nat} (hk : k ≤ min 127 (rowBytes4 s.cfg.width.toNat - s.eng.i.toNat)) :
      s.fitsRow (nib s.cfg.width.toNat s.eng.i.toNat k) k := State.fitsRow_rle4 h4 hcnt hi (by omega)
  have hitems (k : Nat) : s.runItems (nib s.cfg.width.toNat s.eng.i.toNat k) = k := by
    simp [State.runItems, h4, (nib_spec (k := k) hi).1]
  rcases Nat.lt_or_ge (runAt s.by4 127 (rowBytes4 s.cfg.width.toNat) s.eng.i.toNat) 2 with hrun | hrun
  · have hm := literalAt_pos (by omega) hi hrun
    have hle := literalAt_le s.by4 127 2 (rowBytes4 s.cfg.width.toNat) s.eng.i.toNat
    rw [State.choose4_of_literal hrun rfl]
    generalize literalAt s.by4 127 2 (rowBytes4 s.cfg.width.toNat) s.eng.i.toNat = m at hm hle ⊢
    obtain ⟨hbytes, htwo⟩ := nib_spec (k := m) hi
    have hc : (BitVec.ofNat 8 (nib s.cfg.width.toNat s.eng.i.toNat m)).toNat = nib s.cfg.width.toNat s.eng.i.toNat m :=
      toNat_ofNat_byte (by omega)
    split
    · exact State.emitsInRow_abs hc (by rw [itemsFrom_length]; exact hfit hle) ‹_› (by rwa [itemsFrom_length])
        (by rw [itemsFrom_length]; omega)
    · exact State.emitsInRow_short hc (hitems m) (hfit hle) (by omega) hm _
  · have hle := runAt_le s.by4 127 (rowBytes4 s.cfg.width.toNat) s.eng.i.toNat
    rw [State.choose4_of_run hrun rfl]
    generalize runAt s.by4 127 (rowBytes4 s.cfg.width.toNat) s.eng.i.toNat = k at hrun hle ⊢
    obtain ⟨hbytes, htwo⟩ := nib_spec (k := k) hi
    exact State.emitsInRow_run (toNat_ofNat_byte (by omega)) (hitems k) (hfit hle) (by omega) (by omega) _

/-- The items of a whole row hold its pixels. -/
theorem State.pixelsOf_rowItems (s : State) : s.pixelsOf s.rowItems = s.cfg.width.toNat := by
  unfold State.pixelsOf State.rowItems rowBytes4
  split
  · omega
  · rfl

/-- Everything an encoder can choose: a unit of the row, or behind its last item, its count at the width (R290), the
row's end. -/
theorem State.nextUnit_cases {s : State} (hs : s.encOk = true) :
    s.EmitsInRow s.nextUnit ∨ (s.eng.cnt = s.cfg.width ∧
      ((s.eng.r.toNat + 1 < s.cfg.height.toNat ∧ s.nextUnit = .encEol) ∨ s.nextUnit = .encEob)) := by
  obtain ⟨-, -, -, -, hi, hcnt, -⟩ := s.encOk_iff.mp hs
  rcases Nat.lt_or_ge s.eng.i.toNat s.rowItems with hlt | hge
  · refine .inl ?_
    unfold State.rowItems at hlt
    cases h4 : s.encodes4 with
    | true =>
      rw [h4, if_pos rfl] at hlt
      rw [State.nextUnit_rle4 h4 hlt]
      exact State.emitsInRow_choose4 h4 hlt hcnt
    | false =>
      rw [h4, if_neg Bool.false_ne_true] at hlt
      rw [State.nextUnit_rle8 h4 hlt]
      exact State.emitsInRow_choose8 h4 hlt hcnt
  · refine .inr ⟨BitVec.eq_of_toNat_eq ?_, ?_⟩
    · rw [hcnt, le_antisymm hi hge, State.pixelsOf_rowItems]
    · unfold State.nextUnit
      rw [if_neg (not_lt.mpr hge)]
      split
      · exact .inl ⟨‹_›, rfl⟩
      · exact .inr rfl

/-! ### The relation: a step of an encoder -/

/-- From s to t an encoder emits a unit of the row, opens the next row, completes the stream, or finds no room for a unit,
which costs at most two bytes for each pixel of the row left, and two for its end. -/
inductive State.EncodeStep (s : State) : State → Prop
  | unit {u : List Byte} {pixels items : Nat} {e : State} (hfit : s.UnitFits u.length pixels items)
      (he : s.emit u = some e) : EncodeStep s (e.cover pixels items)
  | row {e : State} (hcnt : s.eng.cnt = s.cfg.width) (hr : s.eng.r.toNat + 1 < s.cfg.height.toNat)
      (he : s.emit [0, 0] = some e) : EncodeStep s e.nextRow
  | stream {e : State} (he : s.emit [0, 1] = some e) : EncodeStep s e.endEncode
  | noRoom {len : Nat} (hlen : 2 * s.eng.cnt.toNat + len ≤ 2 * s.cfg.width.toNat + 2)
      (hroom : s.cfg.outLen.toNat < s.eng.o.toNat + len) : EncodeStep s (s.raise .bufferOverflow)

theorem State.lt_of_emit_none {s : State} {u : List Byte} (h : s.emit u = none) :
    s.cfg.outLen.toNat < s.eng.o.toNat + u.length := by
  obtain ⟨hroom, -⟩ | ⟨-, he⟩ := s.emit_cases u
  · exact hroom
  · cases he.symm.trans h

theorem State.emit_frame {s e : State} {u : List Byte} (h : s.emit u = some e) :
    e.status = s.status ∧ e.plat = s.plat := by
  obtain ⟨-, hn⟩ | ⟨-, hs⟩ := s.emit_cases u
  · cases hn.symm.trans h
  · cases hs.symm.trans h
    exact ⟨State.outWriteList_status _ _ _, State.outWriteList_plat _ _ _⟩

/-- Behind a unit that fits the row, the pixels counted are still inside the width. -/
theorem State.UnitFits.cnt_le {s : State} {len pixels items : Nat} (h : s.UnitFits len pixels items) :
    s.eng.cnt.toNat + pixels ≤ s.cfg.width.toNat := by
  obtain ⟨hitems, hpixels⟩ := h.row
  exact hpixels.trans_le (State.pixelsOf_le hitems)

theorem State.encodeStep_emitUnit {s t : State} {u : List Byte} {pixels items : Nat}
    (hfit : s.UnitFits u.length pixels items) (h : s.emitUnit u pixels items = .next t) : s.EncodeStep t := by
  rw [State.emitUnit, State.withinEncoder_eq_next] at h
  obtain ⟨-, h⟩ := h
  split at h
  · subst h
    have hcnt := hfit.cnt_le
    have hshort := hfit.short
    exact .noRoom (len := u.length) (by omega) (State.lt_of_emit_none ‹_›)
  · subst h
    exact .unit hfit ‹_›

/-- The end of a row whose count is the width. -/
theorem endRow_of_count {s t : State} {unit : List Byte} {next : State → State} (h : endRow unit next s = .next t)
    (hcnt : s.eng.cnt = s.cfg.width) :
    (s.cfg.outLen.toNat < s.eng.o.toNat + unit.length ∧ t = s.raise .bufferOverflow) ∨
      ∃ e, s.emit unit = some e ∧ t = next e := by
  obtain ⟨-, ⟨hne, -⟩ | ⟨-, hnone, rfl⟩ | ⟨-, he⟩⟩ := endRow_cases h
  · exact absurd hcnt hne
  · exact .inl ⟨State.lt_of_emit_none hnone, rfl⟩
  · exact .inr he

/-- The unit that an encoder chooses takes such a step. -/
theorem exec_nextUnit_encodeStep {s t : State} (hs : s.encOk = true) (h : exec s.nextUnit s = .next t) :
    s.EncodeStep t := by
  obtain ⟨u, pixels, items, hexec, hfit⟩ | ⟨hcnt, ⟨hr, hunit⟩ | hunit⟩ := State.nextUnit_cases hs
  · exact State.encodeStep_emitUnit hfit (hexec.symm.trans h)
  · rw [hunit, exec_encEol] at h
    obtain ⟨hroom, rfl⟩ | ⟨e, he, rfl⟩ := endRow_of_count h hcnt
    · exact .noRoom (len := 2) (by rw [hcnt]) hroom
    · exact .row hcnt hr he
  · rw [hunit, exec_encEob] at h
    obtain ⟨hroom, rfl⟩ | ⟨e, he, rfl⟩ := endRow_of_count h hcnt
    · exact .noRoom (len := 2) (by rw [hcnt]) hroom
    · exact .stream he

theorem State.encOk_of_inv {s : State} (hi : s.inv = true) (hr : s.encoding) : s.encOk = true :=
  (State.phaseOk_enc hr).symm.trans (s.inv_iff.mp hi).2.2

theorem State.encoding_phase {s : State} (hr : s.encoding) : s.eng.phase = .body :=
  hr.elim State.running_phase State.running_phase

/-- A calm step of an encoder. -/
theorem step_encoding {s : State} (hi : s.inv = true) (hcalm : s.calm) (hr : s.encoding) :
    ∃ t, step s = .next t ∧ s.EncodeStep t := by
  rw [step_calm_body hcalm (State.encoding_phase hr)]
  obtain ⟨t, ht⟩ := interpretStep_answers_enc hr
  refine ⟨t, ht, exec_nextUnit_encodeStep (State.encOk_of_inv hi hr) ?_⟩
  rwa [interpretStep_run (State.fetch_enc hr)] at ht

/-! ### The room an encode needs (R293) -/

/-- Nothing was written past 2W + 2 bytes for each row done and 2 for each pixel of this one. -/
def State.WithinBound (s : State) : Prop :=
  s.eng.o.toNat ≤ s.eng.r.toNat * (2 * s.cfg.width.toNat + 2) + 2 * s.eng.cnt.toNat

/-- A step of an encoder keeps the bound while it goes on. -/
theorem State.EncodeStep.withinBound {s t : State} (h : s.EncodeStep t) (hb : s.WithinBound) (hbusy : t.busy = true) :
    t.WithinBound := by
  have ho := s.cfg.outLen.isLt
  have hw := s.cfg.width.isLt
  have hh := s.cfg.height.isLt
  unfold State.WithinBound at hb ⊢
  cases h with
  | @unit u pixels items e hfit he =>
    obtain ⟨hroom, -, hcfg, heng, -⟩ := State.emit_ok he
    have hcnt := hfit.cnt_le
    have hshort := hfit.short
    rw [State.cover_eng, State.cover_cfg, hcfg, heng]
    dsimp only
    rw [toNat_ofNat_of_lt (n := s.eng.o.toNat + u.length) (by omega),
      toNat_ofNat_of_lt (n := s.eng.cnt.toNat + pixels) (by omega)]
    omega
  | @row e hcnt hr he =>
    obtain ⟨hroom, -, hcfg, heng, -⟩ := State.emit_ok he
    rw [List.length_cons, List.length_singleton] at hroom heng
    rw [hcnt] at hb
    show e.eng.o.toNat ≤ (BitVec.ofNat 32 (e.eng.r.toNat + 1)).toNat * (2 * e.cfg.width.toNat + 2) + 2 * 0
    rw [hcfg, heng]
    dsimp only
    rw [toNat_ofNat_of_lt (n := s.eng.o.toNat + (1 + 1)) (by omega),
      toNat_ofNat_of_lt (n := s.eng.r.toNat + 1) (by omega), Nat.succ_mul]
    omega
  | stream he => cases hbusy
  | noRoom hlen hroom => cases hbusy

/-- Within the bound, H·(2W + 2) bytes leave room for a row's next unit and its end. -/
theorem State.WithinBound.room {s : State} (hb : s.WithinBound) (hrow : s.eng.r.toNat < s.cfg.height.toNat)
    (hout : s.cfg.height.toNat * (2 * s.cfg.width.toNat + 2) ≤ s.cfg.outLen.toNat) {len : Nat}
    (hlen : 2 * s.eng.cnt.toNat + len ≤ 2 * s.cfg.width.toNat + 2) : s.eng.o.toNat + len ≤ s.cfg.outLen.toNat :=
  calc s.eng.o.toNat + len
      ≤ s.eng.r.toNat * (2 * s.cfg.width.toNat + 2) + (2 * s.cfg.width.toNat + 2) := by
        unfold State.WithinBound at hb
        omega
    _ = (s.eng.r.toNat + 1) * (2 * s.cfg.width.toNat + 2) := (Nat.succ_mul _ _).symm
    _ ≤ s.cfg.height.toNat * (2 * s.cfg.width.toNat + 2) := Nat.mul_le_mul_right _ hrow
    _ ≤ s.cfg.outLen.toNat := hout

/-- A step of an encoder brings in no error but BUFFER_OVERFLOW, and that only without room. -/
theorem State.EncodeStep.errcode {s t : State} (h : s.EncodeStep t) :
    t.status.errcode = s.status.errcode ∨ (t.status.errcode = .bufferOverflow ∧
      ∃ len, 2 * s.eng.cnt.toNat + len ≤ 2 * s.cfg.width.toNat + 2 ∧ s.cfg.outLen.toNat < s.eng.o.toNat + len) := by
  cases h with
  | unit hfit he => exact .inl (congrArg Status.errcode (State.emit_frame he).1)
  | row hcnt hr he => exact .inl (congrArg Status.errcode (State.emit_frame he).1)
  | stream he => exact .inl (congrArg Status.errcode (State.emit_frame he).1 :)
  | noRoom hlen hroom => exact .inr ⟨rfl, _, hlen, hroom⟩

/-- The first step of an encoder puts its counters at 0 (R61). -/
theorem State.firstStep_counters {s : State} {op : Operation} {d : Depth} {f : CmdFlags}
    (ho : Operation.ofCode s.ctrl.op = some op) (hr : (s.firstStep op d f).encoding) :
    (s.firstStep op d f).eng.o = 0 ∧ (s.firstStep op d f).eng.r = 0 ∧ (s.firstStep op d f).eng.cnt = 0 := by
  have hphase := State.encoding_phase hr
  cases hc : configError op d f s.cfg with
  | some c =>
    rw [State.firstStep_fails hc] at hphase
    cases hphase
  | none =>
    rw [State.firstStep_enters hc] at hr hphase ⊢
    have hop : op = .encRle8 ∨ op = .encRle4 := by
      refine hr.imp (fun h => ?_) (fun h => ?_) <;>
      · have hcode := (State.running_ctrl h).1
        rw [State.enterOperation_ctrl] at hcode
        rw [hcode, Operation.ofCode_code] at ho
        exact (Option.some.inj ho).symm
    obtain rfl | rfl := hop <;> exact ⟨rfl, rfl, rfl⟩

/-- A host's access starts no body. -/
theorem hostStep_phase_of_start {inp : Input} {s t : State} (hp : s.eng.phase = .start) (h : hostStep inp s = .next t) :
    t.eng.phase ≠ .body := by
  have hb : s.busy = true := by simp [State.busy, hp]
  obtain hq | ⟨offset, v, -, rfl⟩ | ⟨-, hr, rfl⟩ := hostStep_moves h
  · simp [hq.eng, hp]
  · obtain he | ⟨-, hidle, -⟩ | ⟨-, hidle, -⟩ | ⟨-, -, he⟩ | ⟨hidle, -⟩ := s.writeReg_cases offset.toNat v
    · simp [he, hp]
    · cases hb.symm.trans hidle
    · cases hb.symm.trans hidle
    · simp [he, hp]
    · cases hb.symm.trans hidle
  · obtain ⟨-, -, -, -, hidle, -⟩ := State.deassertReset_of_inReset hr
    simp [hidle]

/-- When an encoder's body begins, its counters are 0. -/
theorem step_start_counters {s t : State} (hp : s.eng.phase = .start) (h : step s = .next t) (hr : t.encoding) :
    t.eng.o = 0 ∧ t.eng.r = 0 ∧ t.eng.cnt = 0 := by
  have hbody := State.encoding_phase hr
  obtain ⟨u, hq, h | ⟨inp, rest, -, h⟩⟩ := step_moves h
  · have hpu : u.drawn.eng.phase = .start := by rw [State.drawn_eng, hq.eng, hp]
    obtain he | ⟨-, k, hk, -⟩ | ⟨-, -, he⟩ := engineStep_cases u
    · cases he.symm.trans h
      cases hpu.symm.trans hbody
    · cases hpu.symm.trans hk
    · rw [he, interpretStep_run (State.fetch_start hpu), exec_commandOf_start hpu] at h
      split at h
      · cases h
        exact State.firstStep_counters ‹_› hr
      · cases h
        cases hbody
  · exact absurd hbody (hostStep_phase_of_start (by rw [hq.eng, hp]) h)

/-- Settles O37: the bound is 0 ≤ 0 at first, and each step keeps it, within which there is room. -/
theorem encoderFits : Obligations.EncoderFits := by
  refine ⟨fun s t hp hstep hr => ?_, fun s t hi hcalm hr hout hb hstep => ?_⟩
  · obtain ⟨ho, hrow, hcnt⟩ := step_start_counters hp hstep hr
    refine ⟨ho, hrow, hcnt, ?_⟩
    rw [ho]
    exact Nat.zero_le _
  · obtain ⟨u, hu, hs⟩ := step_encoding hi hcalm hr
    cases hu.symm.trans hstep
    have hrow := State.encoding_row hr
    refine ⟨fun hover => ?_, fun hbusy => hs.withinBound hb hbusy⟩
    obtain he | ⟨-, len, hlen, hroom⟩ := hs.errcode
    · rw [he, State.status_of_busy hi (by simp [State.busy, State.encoding_phase hr])] at hover
      cases hover
    · exact absurd (State.WithinBound.room hb hrow hout hlen) (not_le.mpr hroom)

/-! ### An encode ends (R293) -/

/-- The steps that are enough for the rows left: one for each item of a row, and one for its end. -/
def State.stepsLeft (s : State) : Nat :=
  (s.cfg.height.toNat - s.eng.r.toNat) * (s.cfg.width.toNat + 1) - s.eng.i.toNat

/-- The items covered and the row's end are among the steps of this row. -/
theorem State.item_lt_rows {s : State} (hr : s.encoding) (hs : s.encOk = true) :
    s.eng.i.toNat < (s.cfg.height.toNat - s.eng.r.toNat) * (s.cfg.width.toNat + 1) := by
  obtain ⟨-, -, -, -, hi, -⟩ := s.encOk_iff.mp hs
  have hrow := State.encoding_row hr
  calc s.eng.i.toNat
      < s.cfg.width.toNat + 1 := Nat.lt_succ_of_le (hi.trans s.rowItems_le)
    _ ≤ _ := Nat.le_mul_of_pos_left _ (by omega)

theorem State.cover_encoding {s e : State} {u : List Byte} {pixels items : Nat} (hr : s.encoding)
    (he : s.emit u = some e) : (e.cover pixels items).encoding := by
  obtain ⟨-, hctrl, hcfg, heng, -⟩ := State.emit_ok he
  exact State.encoding_of_eq hr hctrl hcfg (by rw [State.cover_eng, heng])
    (by rw [State.cover_eng, heng]; exact State.encoding_row hr)

theorem State.nextRow_encoding {s e : State} {u : List Byte} (hr : s.encoding)
    (hrow : s.eng.r.toNat + 1 < s.cfg.height.toNat) (he : s.emit u = some e) : e.nextRow.encoding := by
  obtain ⟨-, hctrl, hcfg, heng, -⟩ := State.emit_ok he
  have hh := s.cfg.height.isLt
  refine State.encoding_of_eq hr hctrl hcfg (by rw [State.nextRow, heng]) ?_
  rw [State.nextRow, heng]
  dsimp only
  rwa [toNat_ofNat_of_lt (by omega)]

/-- A step of an encoder goes on, with fewer steps left, or ends the operation. -/
theorem State.EncodeStep.goesOn_or_stops {s t : State} (h : s.EncodeStep t) (hr : s.encoding) (hs : s.encOk = true) :
    (t.encoding ∧ t.plat = s.plat ∧ t.stepsLeft < s.stepsLeft) ∨ s.Stops t := by
  have hitem := State.item_lt_rows hr hs
  obtain ⟨-, -, -, -, hi, -⟩ := s.encOk_iff.mp hs
  have hitems := s.rowItems_le
  have hw := s.cfg.width.isLt
  have hh := s.cfg.height.isLt
  cases h with
  | @unit u pixels items e hfit he =>
    obtain ⟨-, -, hcfg, heng, -⟩ := State.emit_ok he
    refine .inl ⟨State.cover_encoding hr he, (State.emit_frame he).2, ?_⟩
    have hpos := hfit.pos
    have hle := hfit.row.1
    rw [State.stepsLeft, State.stepsLeft, State.cover_eng, State.cover_cfg, hcfg, heng]
    dsimp only
    rw [toNat_ofNat_of_lt (by omega)]
    omega
  | @row e hcnt hrow he =>
    obtain ⟨-, -, hcfg, heng, -⟩ := State.emit_ok he
    refine .inl ⟨State.nextRow_encoding hr hrow he, (State.emit_frame he).2, ?_⟩
    have hrows : (s.cfg.height.toNat - s.eng.r.toNat) * (s.cfg.width.toNat + 1) =
        (s.cfg.height.toNat - (s.eng.r.toNat + 1)) * (s.cfg.width.toNat + 1) + (s.cfg.width.toNat + 1) := by
      rw [← Nat.succ_mul]
      congr 1
      omega
    rw [State.stepsLeft, State.stepsLeft, State.nextRow, hcfg, heng]
    dsimp only
    rw [toNat_ofNat_of_lt (by omega)]
    simp only [BitVec.ofNat_eq_ofNat, BitVec.toNat_ofNat, Nat.zero_mod]
    omega
  | stream he => exact .inr ⟨_, .inl rfl, (State.emit_frame he).2⟩
  | noRoom hlen hroom => exact .inr (s.stops_raise _)

/-- A calm encode with at most n + 1 steps left. -/
structure State.EncodeLeft (n : Nat) (s : State) : Prop where
  inv : s.inv = true
  calm : s.calm
  encoding : s.encoding
  left : s.stepsLeft ≤ n + 1

theorem State.EncodeLeft.step {n : Nat} {s : State} (h : s.EncodeLeft n) :
    ∃ t, step s = .next t ∧ ((∃ m, n = m + 1 ∧ t.EncodeLeft m) ∨ s.Stops t) := by
  obtain ⟨t, hstep, hs⟩ := step_encoding h.inv h.calm h.encoding
  have hinv : t.inv = true := invariantKept s t h.inv hstep
  refine ⟨t, hstep, (hs.goesOn_or_stops h.encoding (State.encOk_of_inv h.inv h.encoding)).imp_left ?_⟩
  rintro ⟨hr, hplat, hlt⟩
  have hcalm : t.calm := by
    rw [State.calm, hplat]
    exact h.calm
  have hleft := h.left
  have hpos := State.item_lt_rows hr (State.encOk_of_inv hinv hr)
  have ht : 0 < t.stepsLeft := Nat.sub_pos_of_lt hpos
  obtain ⟨m, rfl⟩ := Nat.exists_eq_succ_of_ne_zero (show n ≠ 0 by omega)
  exact ⟨m, rfl, hinv, hcalm, hr, by omega⟩

/-- Settles O38: each step that goes on lowers the steps left. -/
theorem encodeEnds : Obligations.EncodeEnds := by
  intro s hi hcalm hr
  have hpos := State.item_lt_rows hr (State.encOk_of_inv hi hr)
  obtain ⟨n, hn⟩ := Nat.exists_eq_succ_of_ne_zero (Nat.ne_zero_of_lt hpos)
  have hleft : s.EncodeLeft n := ⟨hi, hcalm, hr, (Nat.sub_le _ _).trans hn.le⟩
  rw [hn]
  exact run_ends (fun _ _ => State.EncodeLeft.calm) (fun _ _ => State.EncodeLeft.step) hleft

end Sys2Proof.Machine
end

section
/-!
PROOF. ENC_COUNT_MISMATCH cannot occur (spec/43_rle_encode.md R290). Only a row's end raises it, an encoder ends a row
with its count at the width (`State.nextUnit_cases`), and outside an encode no error of another operation is that one.
-/

namespace Sys2Proof.Machine

/-! ### The relation: no mismatch comes in -/

/-- From s to t ENC_COUNT_MISMATCH does not come in. -/
def State.NoNewMismatch (s t : State) : Prop :=
  s.status.errcode ≠ .encCountMismatch → t.status.errcode ≠ .encCountMismatch

namespace State.NoNewMismatch

theorem of_errcode_eq {s t : State} (h : t.status.errcode = s.status.errcode) : s.NoNewMismatch t := fun hs => by
  rwa [h]

theorem of_status_eq {s t : State} (h : t.status = s.status) : s.NoNewMismatch t :=
  of_errcode_eq (congrArg Status.errcode h)

theorem raise (s : State) {c : ErrCode} (h : c ≠ .encCountMismatch) : s.NoNewMismatch (s.raise c) := fun _ => h

theorem trans {s t u : State} (h : s.NoNewMismatch t) (h' : t.NoNewMismatch u) : s.NoNewMismatch u := fun hs => h' (h hs)

/-- Success brings in no error. -/
theorem finish {s t : State} (h : s.NoNewMismatch t) : s.NoNewMismatch t.finish := h

end State.NoNewMismatch

theorem State.Keeps.noNewMismatch {s t : State} (h : s.Keeps t) : s.NoNewMismatch t := .of_status_eq h.status

/-! ### The errors of the other operations -/

/-- A failing START check raises BAD_CONFIG or TRUNCATED (spec/60_exceptions.md R403). -/
theorem configError_code {op : Operation} {d : Depth} {f : CmdFlags} {g : Cfg} {c : ErrCode}
    (h : configError op d f g = some c) : c = .badConfig ∨ c = .truncated := by
  obtain ⟨check, hfind, rfl⟩ := Option.map_eq_some_iff.mp h
  have hmem := List.mem_of_find?_eq_some hfind
  simp only [configChecks, List.mem_cons, List.not_mem_nil, or_false] at hmem
  obtain rfl | rfl | rfl | rfl | rfl | rfl | rfl := hmem <;> simp

theorem State.firstStep_noNewMismatch (s : State) (op : Operation) (d : Depth) (f : CmdFlags) :
    s.NoNewMismatch (s.firstStep op d f) := by
  cases hc : configError op d f s.cfg with
  | some c =>
    rw [State.firstStep_fails hc]
    obtain rfl | rfl := configError_code hc <;> exact .raise s (by decide)
  | none =>
    rw [State.firstStep_enters hc]
    exact .of_status_eq (s.enterOperation_status op d)

theorem runCommand_noNewMismatch {w : Word} {first : State → State} {s t : State} (hb : s.busy = true)
    (h : runCommand w first s = .next t) (hf : s.NoNewMismatch (first s)) : s.NoNewMismatch t := by
  obtain ⟨hi, -⟩ | ⟨-, rfl⟩ | rfl := runCommand_cases h
  · simp [State.busy, hi] at hb
  · exact hf
  · exact .of_status_eq rfl

theorem rleUnit_noNewMismatch {v : Rle} {len : Nat} {effect : State → State} {s t : State}
    (h : rleUnit v len effect s = .next t) (he : s.NoNewMismatch (effect s)) : s.NoNewMismatch t := by
  obtain ⟨-, ⟨-, rfl⟩ | ⟨-, rfl⟩⟩ := rleUnit_cases h
  · exact .raise s (by decide)
  · exact he

/-- The write check raises WIDTH_OVERFLOW or BUFFER_OVERFLOW (spec/40_rle_decode.md R153). -/
theorem rlePixels_noNewMismatch {v : Rle} {len n : Nat} {write : State → State} {s t : State}
    (h : rlePixels v len n write s = .next t)
    (hw : s.lastByte (Rle.depth v) n < s.cfg.outLen.toNat → s.WritesOut (write s)) : s.NoNewMismatch t := by
  refine rleUnit_noNewMismatch h ?_
  obtain ⟨-, hc⟩ | ⟨-, -, hc⟩ | ⟨-, -, hlast, hc⟩ := s.checkWrite_cases (Rle.depth v) n <;> rw [hc]
  · exact .raise s (by decide)
  · exact .raise s (by decide)
  · exact .of_status_eq (by rw [State.moveTo_status, (hw hlast).eq])

/-- A run code's effect fails with WIDTH_OVERFLOW or BUFFER_OVERFLOW (spec/41_g3_decode.md R206, R207). -/
theorem CodeEffect.error {effect : State → Except ErrCode State} (hef : CodeEffect effect) {s : State} {c : ErrCode}
    (h : effect s = .error c) : c = .widthOverflow ∨ c = .bufferOverflow := by
  cases hef with
  | terminating n =>
    unfold terminateRun at h
    dsimp only at h
    split at h
    · cases h
      exact .inl rfl
    · split at h <;> cases h
      exact .inr rfl
  | makeUp n =>
    unfold makeUpRun at h
    split at h <;> cases h
    exact .inl rfl

theorem runCode_noNewMismatch {len : Nat} {effect : State → Except ErrCode State} (hef : CodeEffect effect) {s t : State}
    (h : runCode len effect s = .next t) : s.NoNewMismatch t := by
  have hr := (runCode_cases h).1
  cases hstarted : s.eng.started with
  | false =>
    cases (runCode_not_started hr hstarted).symm.trans h
    exact .raise s (by decide)
  | true =>
    cases he : effect s with
    | error c =>
      cases (runCode_error hr hstarted he).symm.trans h
      obtain rfl | rfl := hef.error he <;> exact .raise s (by decide)
    | ok u =>
      cases (runCode_ok hr hstarted he).symm.trans h
      exact (hef.keeps hr he).noNewMismatch.trans (.of_status_eq rfl)

theorem execEol_noNewMismatch {fill : Nat} {s t : State} (h : execEol fill s = .next t) : s.NoNewMismatch t := by
  obtain ⟨-, ⟨-, rfl⟩ | ⟨-, -, rfl⟩ | ⟨-, -, rfl⟩⟩ := execEol_cases h
  · exact .raise s (by decide)
  · exact .finish (.of_status_eq rfl)
  · exact .of_status_eq rfl

theorem pixelStep_noNewMismatch {d : Depth} {color : State → Option Rgba} {s t : State}
    (h : pixelStep d color s = .next t) : s.NoNewMismatch t := by
  obtain ⟨hr, ⟨-, rfl⟩ | ⟨c, -, rfl⟩⟩ := pixelStep_cases h
  · exact .raise s (by decide)
  · have hk := ((State.writesOut_storePixel hr c).keeps (State.running_out hr)).noNewMismatch
    obtain ⟨-, he⟩ | ⟨-, -, he⟩ | ⟨u, hu, he⟩ := (s.storePixel c).nextPixel_cases d <;> rw [he]
    · exact hk.trans (.of_status_eq rfl)
    · exact hk.trans (.of_status_eq rfl)
    · exact .finish (hk.trans hu.noNewMismatch)

/-- While BUSY, outside an encode, no instruction brings it in. -/
theorem ExecForm.noNewMismatch {s t : State} {o : Host.Outcome State Fault Refusal} (hf : ExecForm s o)
    (hb : s.busy = true) (henc : ¬ s.encoding) (h : o = .next t) : s.NoNewMismatch t := by
  cases hf with
  | legalCommand w op d f => exact runCommand_noNewMismatch hb h (s.firstStep_noNewMismatch op d f)
  | reservedCommand w => exact runCommand_noNewMismatch hb h (.raise s (by decide))
  | pixels8 len n vs hn => exact rlePixels_noNewMismatch h (writesOut_putPixels_put8 hn)
  | pixels4 len n vs hn => exact rlePixels_noNewMismatch h (writesOut_putPixels_put4 hn)
  | pixels24 len n vs hn => exact rlePixels_noNewMismatch h (writesOut_putPixels_put24 hn)
  | rleEol v => exact rleUnit_noNewMismatch h (.of_status_eq rfl)
  | rleEob v => exact rleUnit_noNewMismatch h (.finish (.of_status_eq rfl))
  | rleDelta v dx dy => exact rleUnit_noNewMismatch h (.of_status_eq rfl)
  | emitUnit u pixels items => exact absurd (State.encoding_of_emitUnit h) henc
  | encEol => exact absurd (endRow_cases h).1 henc
  | encEob => exact absurd (endRow_cases h).1 henc
  | runCode len effect he => exact runCode_noNewMismatch he h
  | eolCode fill => exact execEol_noNewMismatch h
  | pixel d color => exact pixelStep_noNewMismatch h

/-! ### The errors of a fetch -/

theorem State.fetchUnit_failed {s : State} {v : Rle} {c : ErrCode} (h : s.fetchUnit v = .failed c) :
    ∃ e, c = rejectCode e := by
  unfold State.fetchUnit at h
  dsimp only at h
  split at h
  · cases h
  · split at h <;> cases h
    exact ⟨_, rfl⟩

theorem State.fetchCode_failed {s : State} {c : ErrCode} (h : s.fetchCode = .failed c) : ∃ e, c = rejectCode e := by
  unfold State.fetchCode at h
  dsimp only at h
  split at h <;> cases h
  exact ⟨_, rfl⟩

theorem State.fetchPixel_failed {s : State} {d : Depth} {c : ErrCode} (h : s.fetchPixel d = .failed c) :
    ∃ e, c = rejectCode e := by
  unfold State.fetchPixel at h
  dsimp only at h
  split at h <;> cases h
  exact ⟨_, rfl⟩

theorem State.fetchBody_failed {s : State} {op : Operation} {d : Depth} {c : ErrCode} (h : s.fetchBody op d = .failed c) :
    ∃ e, c = rejectCode e := by
  unfold State.fetchBody at h
  split at h
  · cases op with
    | decRle8 | decRle4 | decRle24 => exact State.fetchUnit_failed h
    | decHuff => exact State.fetchCode_failed h
    | encRle8 | encRle4 => cases h
    | unpack => exact State.fetchPixel_failed h
  · cases h

/-- A fetch fails only for the decoder's reason. -/
theorem State.fetch_failed {s : State} {c : ErrCode} (h : s.fetch = .failed c) : ∃ e, c = rejectCode e := by
  unfold State.fetch at h
  split at h
  · cases h
  · split at h
    · exact State.fetchBody_failed h
    · cases h
  all_goals cases h

theorem rejectCode_ne_mismatch (e : Reject) : rejectCode e ≠ .encCountMismatch := by
  cases e <;> decide

/-! ### Every step -/

/-- A step of an encoder raises no error but BUFFER_OVERFLOW. -/
theorem State.EncodeStep.noNewMismatch {s t : State} (h : s.EncodeStep t) : s.NoNewMismatch t := by
  obtain he | ⟨he, -⟩ := h.errcode
  · exact .of_errcode_eq he
  · intro _
    rw [he]
    decide

theorem interpretStep_noNewMismatch {s t : State} (hb : s.busy = true) (hs : s.phaseOk = true)
    (h : interpretStep s = .next t) : s.NoNewMismatch t := by
  obtain ⟨i, hf, h⟩ | ⟨-, rfl⟩ | ⟨c, hf, rfl⟩ := interpretStep_cases h
  · by_cases henc : s.encoding
    · rw [State.fetch_enc henc] at hf
      cases hf
      exact (exec_nextUnit_encodeStep ((State.phaseOk_enc henc).symm.trans hs) h).noNewMismatch
    · exact (exec_form i s).noNewMismatch hb henc h
  · exact .finish (.of_errcode_eq rfl)
  · obtain ⟨e, rfl⟩ := State.fetch_failed hf
    exact .raise s (rejectCode_ne_mismatch e)

theorem engineStep_noNewMismatch {s t : State} (hs : s.phaseOk = true) (h : engineStep s = .next t) :
    s.NoNewMismatch t := by
  have hd : s.drawn.phaseOk = true := (State.Quiet.drawn s).phaseOk.trans hs
  obtain he | ⟨-, k, hp, he⟩ | ⟨-, hp, he⟩ := engineStep_cases s
  · cases he.symm.trans h
    exact .of_status_eq rfl
  · have hb : s.drawn.busy = true := by simp [State.busy, hp]
    exact (zeroFillStep_keeps hb (he.symm.trans h)).noNewMismatch
  · have hb : s.drawn.busy = true := by
      obtain hp | hp := hp <;> simp [State.busy, hp]
    exact interpretStep_noNewMismatch (s := s.drawn) hb hd (he.symm.trans h)

/-- The host raises no error: a START and the end of a reset clear STATUS, and no other access changes ERRCODE. -/
theorem hostStep_noNewMismatch {inp : Input} {s t : State} (h : hostStep inp s = .next t) : s.NoNewMismatch t := by
  have hzero {t : State} (ht : t.status = .zero) : s.NoNewMismatch t := fun _ => by
    rw [ht]
    decide
  obtain hq | ⟨offset, v, -, rfl⟩ | ⟨-, hr, rfl⟩ := hostStep_moves h
  · exact .of_status_eq hq.status
  · obtain he | ⟨-, -, -, he⟩ | ⟨-, -, -, he⟩ | ⟨-, -, he⟩ | ⟨-, he⟩ := s.writeReg_cases offset.toNat v <;> rw [he]
    · exact .of_status_eq rfl
    · exact hzero rfl
    · exact .of_status_eq rfl
    · exact .of_errcode_eq rfl
    · exact .of_status_eq rfl
  · exact hzero (State.deassertReset_of_inReset hr).2.1

/-- Settles O36: neither a turn of the engine nor a host's access brings it in. -/
theorem countMismatchNever : Obligations.CountMismatchNever := by
  intro s t hi hs hstep
  obtain ⟨u, hq, h | ⟨inp, rest, -, h⟩⟩ := step_moves hstep
  · exact engineStep_noNewMismatch (hq.phaseOk.trans (s.inv_iff.mp hi).2.2) h (by rwa [hq.status])
  · exact hostStep_noNewMismatch h (by rwa [hq.status])

end Sys2Proof.Machine
end

section
/-!
PROOF. The pixels of the unpacker (spec/44_unpack.md R330 to R339): what a pixel's step stores in OUT, and where the cursor
and the progress registers are behind it.
-/

namespace Sys2Proof.Machine

/-! ### Behind a pixel (R330, R335) -/

/-- Counting up the unpacker's column or image row, by one. -/
theorem ofNat_toNat_succ (v : Word) : BitVec.ofNat 32 (v.toNat + 1) = v + 1 := by
  bv_omega

/-- The file row of the next image row is the one above (spec/00_scope.md R9). -/
theorem ofNat_fileRow_above {y j h : Word} (hy : y.toNat + j.toNat + 1 = h.toNat) (hj : j.toNat + 1 < h.toNat) :
    BitVec.ofNat 32 (h.toNat - 1 - (j.toNat + 1)) = y - 1 := by
  bv_omega

/-- Settles O41: the cases of `State.nextPixel`, with y counted from the file row that the unpacker is in. -/
theorem pixelPositions : Obligations.PixelPositions := by
  intro d s hr hraces
  obtain ⟨-, hy, -⟩ := State.running_unpack hr
  dsimp only
  unfold State.nextPixel
  dsimp only
  split
  · rw [ofNat_toNat_succ]
    rfl
  · split
    · rw [ofNat_toNat_succ, ofNat_fileRow_above hy ‹_›]
      rfl
    · exact State.finish_of_no_races hraces

/-! ### What a pixel means: its colour (R334 to R339) -/

theorem exec_pix1 (e : Byte) (s : State) :
    exec (.pix1 e) s = pixelStep .d1 (fun s => s.lookup .d1 (e.getLsbD (7 - s.eng.x.toNat % 8)).toNat) s := rfl

theorem exec_pix4 (h l : Nibble) (s : State) :
    exec (.pix4 h l) s = pixelStep .d4 (fun s => s.lookup .d4 (if s.eng.x.toNat % 2 = 0 then h else l).toNat) s := rfl

theorem exec_pix8 (v : Byte) (s : State) :
    exec (.pix8 v) s = pixelStep .d8 (fun s => s.lookup .d8 v.toNat) s := rfl

theorem exec_pix24 (b g r : Byte) (s : State) :
    exec (.pix24 b g r) s = pixelStep .d24 (fun _ => some { r := r, g := g, b := b, a := 255 }) s := rfl

theorem exec_pix32 (b g r x : Byte) (s : State) :
    exec (.pix32 b g r x) s =
      pixelStep .d32 (fun s => some { r := r, g := g, b := b, a := if s.ctrl.flags.a32 then x else 255 }) s := rfl

/-! ### The pixel stored (R333) -/

/-- A pixel's step stores the bytes bs as the pixel at (x, j) of OUT, and the cursor moves on (spec/44_unpack.md R330). -/
def State.StoresPixel (s : State) (d : Depth) (o : Host.Outcome State Fault Refusal) (bs : List Byte) : Prop :=
  ∃ m, o = .next (State.nextPixel { s with mem := m } d) ∧
    s.holdsOut { s with mem := m }
      ((s.eng.j.toNat * s.cfg.width.toNat + s.eng.x.toNat) * outPixelSize s.ctrl.flags) bs

theorem State.holdsOut_storePixel (s : State) (c : Rgba) :
    s.holdsOut { s with mem := (s.storePixel c).mem }
      ((s.eng.j.toNat * s.cfg.width.toNat + s.eng.x.toNat) * outPixelSize s.ctrl.flags) (c.bytes s.ctrl.flags) := by
  intro a
  rw [State.storePixel_eq, ← State.outWriteList_eq, State.memByte_outWriteList]

/-- A pixel that has a colour is stored. -/
theorem pixelStep_stores {d : Depth} {color : State → Option Rgba} {s : State} {c : Rgba}
    (hr : s.running .unpack d = true) (hc : color s = some c) :
    s.StoresPixel d (pixelStep d color s) (c.bytes s.ctrl.flags) := by
  refine ⟨(s.storePixel c).mem, ?_, s.holdsOut_storePixel c⟩
  rw [pixelStep_some hr hc, State.storePixel_eq, ← State.outWriteList_eq]

/-- Settles O40: a pixel of 24 or 32 bits is its colour, with the alpha that the flags choose. -/
theorem directPixels : Obligations.DirectPixels := by
  intro b g r x s
  rw [exec_pix24, exec_pix32]
  exact ⟨fun hr => pixelStep_stores (c := ⟨r, g, b, 255⟩) hr rfl,
    fun hr => pixelStep_stores (c := ⟨r, g, b, if s.ctrl.flags.a32 then x else 255⟩) hr rfl⟩

/-! ### The colour table (R331, R332) -/

theorem State.palByte_of_no_races {s : State} (h : s.plat.races = []) (k : Nat) :
    s.palByte k = s.memByte (s.cfg.palBase.toNat + k) :=
  State.engRead_of_no_races h 1 _

/-- PAL_COUNT = 0 stands for a full table (spec/44_unpack.md R331). -/
theorem palEntries_eq (d : Depth) (g : Cfg) :
    palEntries d g = if g.palCount.toNat = 0 then 2 ^ d.bits else g.palCount.toNat := by
  have h : g.palCount.toNat = 0 ↔ g.palCount = 0 := ⟨fun h => BitVec.eq_of_toNat_eq h, fun h => h ▸ rfl⟩
  simp only [palEntries, h]

/-- The bytes of the pixel for an entry of the table: its B, G, R turned round, and opaque (spec/44_unpack.md R332, R333,
R341). -/
def State.entryPixel (s : State) (v : Nat) : List Byte :=
  let entry := s.cfg.palBase.toNat + v * palEntrySize s.ctrl.flags
  [s.memByte (entry + 2), s.memByte (entry + 1), s.memByte entry] ++ if s.ctrl.flags.outfmt then [255] else []

/-- A value looks up its entry of the table in memory. -/
theorem State.lookup_of_no_races {s : State} (h : s.plat.races = []) {d : Depth} {v : Nat} (hv : v < palEntries d s.cfg) :
    ∃ c, s.lookup d v = some c ∧ c.bytes s.ctrl.flags = s.entryPixel v := by
  refine ⟨_, State.lookup_some hv, ?_⟩
  simp only [Rgba.bytes, State.palByte_of_no_races h, State.entryPixel, Nat.add_assoc]

/-- The outcomes of a pixel that goes through the colour table: a value past the table, or the entry's pixel. -/
theorem pixelStep_lookup {d : Depth} {value : State → Nat} {s : State} (hraces : s.plat.races = []) {v : Nat}
    (hv : value s = v) (hr : s.running .unpack d = true) :
    if palEntries d s.cfg ≤ v then pixelStep d (fun s => s.lookup d (value s)) s = .next (s.ended .palIndexRange)
    else s.StoresPixel d (pixelStep d (fun s => s.lookup d (value s)) s) (s.entryPixel v) := by
  subst hv
  split
  · rw [pixelStep_none hr (State.lookup_none ‹_›), State.raise_of_no_races hraces]
  · obtain ⟨c, hc, hbytes⟩ := State.lookup_of_no_races hraces (not_le.mp ‹_›)
    exact hbytes ▸ pixelStep_stores hr hc

/-- A bit of a byte as a number. -/
theorem toNat_getLsbD (e : Byte) (k : Nat) : (e.getLsbD k).toNat = (e >>> k).toNat % 2 := by
  rw [BitVec.getLsbD, Nat.toNat_testBit, BitVec.toNat_ushiftRight, Nat.shiftRight_eq_div_pow]

/-- Settles O39: each depth's value goes through the colour table. -/
theorem indexedPixels : Obligations.IndexedPixels := by
  intro e v h l s hraces
  dsimp only
  simp only [← palEntries_eq, exec_pix1, exec_pix4, exec_pix8]
  exact ⟨pixelStep_lookup hraces (toNat_getLsbD e _), pixelStep_lookup hraces (apply_ite _ _ _ _),
    pixelStep_lookup hraces rfl⟩

end Sys2Proof.Machine
end

section
/-!
PROOF. UNPACK takes one step a pixel (spec/44_unpack.md R330, R342). A step of a calm unpack stores a pixel and leaves one
pixel less (`State.UnpackLeft`), or stores the last one and ends with success, or ends with PAL_INDEX_RANGE.
-/

namespace Sys2Proof.Machine

/-! ### The pixels left -/

/-- The unpacker's pixel is one of the image's W·H. -/
theorem State.running_pixel_in_image {s : State} {d : Depth} (h : s.running .unpack d = true) :
    s.eng.j.toNat * s.cfg.width.toNat + s.eng.x.toNat < s.cfg.width.toNat * s.cfg.height.toNat := by
  have hin := State.running_pixel_in_out h
  obtain ⟨-, -, hout⟩ := State.running_unpack h
  rw [hout, ← Nat.succ_mul] at hin
  refine Nat.le_of_mul_le_mul_right hin ?_
  unfold outPixelSize
  split <;> decide

/-- The input that a whole image takes is a 32-bit number: it lies inside IN. -/
theorem State.inputLength_toNat {s : State} {d : Depth} (h : s.running .unpack d = true) :
    (BitVec.ofNat 32 (stride d s.cfg.width.toNat * s.cfg.height.toNat)).toNat =
      stride d s.cfg.width.toNat * s.cfg.height.toNat := by
  obtain ⟨-, -, -, -, -, -, hcovers⟩ := configError_none (State.running_config h)
  exact toNat_ofNat_of_lt ((hcovers (.inl rfl)).trans_lt s.cfg.inLen.isLt)

/-- A calm unpack at depth d with configuration g, n pixels left behind the one that it is at. -/
structure State.UnpackLeft (g : Cfg) (d : Depth) (n : Nat) (s : State) : Prop where
  inv : s.inv = true
  calm : s.calm
  running : s.running .unpack d = true
  cfg : s.cfg = g
  left : s.eng.j.toNat * g.width.toNat + s.eng.x.toNat + n + 1 = g.width.toNat * g.height.toNat

/-- The unpack of configuration g succeeded: OUT is full and the whole image is read (spec/44_unpack.md R330). -/
def State.UnpackedAll (g : Cfg) (d : Depth) (t : State) : Prop :=
  t.status.errcode = .none ∧ t.pos.outPos = g.outLen ∧
    t.pos.inPos.toNat = stride d g.width.toNat * g.height.toNat

/-- A value past the colour table ended an unpack that reads one (spec/44_unpack.md R332). -/
def State.IndexError (d : Depth) (t : State) : Prop :=
  (d = .d1 ∨ d = .d4 ∨ d = .d8) ∧ t.status.errcode = .palIndexRange

namespace State.UnpackLeft

variable {g : Cfg} {d : Depth} {n : Nat} {s : State}

theorem phaseOk (h : s.UnpackLeft g d n) : s.phaseOk = true :=
  (s.inv_iff.mp h.inv).2.2

theorem unpackOk (h : s.UnpackLeft g d n) : s.unpackOk = true :=
  (State.phaseOk_of_running h.running).symm.trans h.phaseOk

theorem busy (h : s.UnpackLeft g d n) : s.busy = true := by
  simp [State.busy, State.running_phase h.running]

/-- The pixel's bytes in OUT leave all that counts as they were. -/
theorem storePixel (h : s.UnpackLeft g d n) (c : Rgba) :
    (s.storePixel c).UnpackLeft g d n := by
  have hw := State.writesOut_storePixel h.running c
  have hq := hw.quiet (State.running_out h.running)
  have hplat : (s.storePixel c).plat = s.plat := by rw [hw.eq]
  refine ⟨hq.inv h.inv, ?_, (hq.running _ _).trans h.running, hq.cfg.trans h.cfg, ?_⟩
  · rw [State.calm, hplat]
    exact h.calm
  · rw [hq.eng]
    exact h.left

/-- A pixel that is not the last leaves one pixel less. -/
theorem of_nextPixel {t : State} (h : s.UnpackLeft g d n) (ht : s.nextPixel d = t)
    (hk : s.Keeps t) (hplat : t.plat = s.plat) (hcfg : t.cfg = s.cfg) (hp : t.eng.phase = s.eng.phase)
    (hx : t.eng.x.toNat < s.cfg.width.toNat) (hy : t.eng.y.toNat + t.eng.j.toNat + 1 = s.cfg.height.toNat)
    (hpos : t.eng.j.toNat * g.width.toNat + t.eng.x.toNat = s.eng.j.toNat * g.width.toNat + s.eng.x.toNat + 1) :
    ∃ m, n = m + 1 ∧ t.UnpackLeft g d m := by
  have hc : t.cursorOk .unpack = true := by simp [State.cursorOk, hcfg, hx, hy]
  have hr := State.running_of_eq h.running hk.ctrl hcfg hp hc
  have hin := State.running_pixel_in_image hr
  rw [hcfg, h.cfg] at hin
  have hleft := h.left
  obtain ⟨m, rfl⟩ := Nat.exists_eq_succ_of_ne_zero (show n ≠ 0 by omega)
  have hphase : t.phaseOk = true := ht ▸ State.phaseOk_nextPixel h.running h.phaseOk
  refine ⟨m, rfl, hk.inv h.inv hphase, ?_, hr, hcfg.trans h.cfg, by omega⟩
  rw [State.calm, hplat]
  exact h.calm

/-- At the last pixel none is left, and the output offset behind it is OUT_LEN. -/
theorem of_last (h : s.UnpackLeft g d n)
    (hx : s.eng.x.toNat + 1 = s.cfg.width.toNat) (hj : s.eng.j.toNat + 1 = s.cfg.height.toNat) :
    n = 0 ∧ BitVec.ofNat 32 (s.eng.o.toNat + outPixelSize s.ctrl.flags) = g.outLen := by
  obtain rfl := h.cfg
  have hall : s.eng.j.toNat * s.cfg.width.toNat + s.eng.x.toNat + 1 = s.cfg.width.toNat * s.cfg.height.toNat := by
    rw [Nat.add_assoc, hx, ← Nat.succ_mul, Nat.succ_eq_add_one, hj, Nat.mul_comm]
  have hleft := h.left
  obtain ⟨-, -, hout⟩ := State.running_unpack h.running
  refine ⟨by omega, BitVec.eq_of_toNat_eq ?_⟩
  rw [State.nextOffset_toNat h.running h.unpackOk, hall, hout]

/-- Behind a pixel there is one pixel less, or the unpack has succeeded. -/
theorem nextPixel (h : s.UnpackLeft g d n) :
    (∃ m, n = m + 1 ∧ (s.nextPixel d).UnpackLeft g d m) ∨
      (s.nextPixel d).busy = false ∧ (s.nextPixel d).status.done = true ∧ n = 0 ∧ (s.nextPixel d).UnpackedAll g d := by
  obtain rfl := h.cfg
  obtain ⟨hx, hy, -⟩ := State.running_unpack h.running
  have hw := s.cfg.width.isLt
  have hh := s.cfg.height.isLt
  obtain ⟨-, -, hraces⟩ := h.calm
  have hpos := pixelPositions d s h.running hraces
  dsimp only at hpos
  split at hpos
  · have hx1 : (s.eng.x + 1).toNat = s.eng.x.toNat + 1 := BitVec.toNat_add_of_lt (by simp; omega)
    exact .inl (hpos ▸ h.of_nextPixel hpos (.of_mem_eq rfl rfl rfl rfl) rfl rfl rfl (hx1.trans_lt ‹_›) hy
      (congrArg (_ + ·) hx1))
  · split at hpos
    · have hj1 : (s.eng.j + 1).toNat = s.eng.j.toNat + 1 := BitVec.toNat_add_of_lt (by simp; omega)
      have hy1 : (s.eng.y - 1).toNat = s.eng.y.toNat - 1 := BitVec.toNat_sub_of_le (by bv_omega)
      refine .inl (hpos ▸ h.of_nextPixel hpos (.of_mem_eq rfl rfl rfl rfl) rfl rfl rfl (Nat.zero_lt_of_lt hx) ?_ ?_)
      · show (s.eng.y - 1).toNat + (s.eng.j + 1).toNat + 1 = s.cfg.height.toNat
        omega
      · show (s.eng.j + 1).toNat * s.cfg.width.toNat + 0 = s.eng.j.toNat * s.cfg.width.toNat + s.eng.x.toNat + 1
        rw [hj1, Nat.succ_mul]
        omega
    · obtain ⟨hn, ho⟩ := h.of_last (by omega) (by omega)
      have hstatus := State.status_of_busy h.inv h.busy
      rw [hpos]
      exact .inr ⟨rfl, rfl, hn, congrArg Status.errcode hstatus, ho, State.inputLength_toNat h.running⟩

end State.UnpackLeft

/-! ### A step is a pixel -/

/-- The fetch of the unpacker is a pixel, with a colour unless the depth goes through the colour table. -/
theorem State.fetchPixel_run (s : State) (d : Depth) :
    ∃ i color, s.fetchPixel d = .run i ∧ exec i s = pixelStep d color s ∧
      (color s = none → d = .d1 ∨ d = .d4 ∨ d = .d8) := by
  cases d with
  | d1 => exact ⟨_, _, rfl, exec_pix1 _ s, fun _ => .inl rfl⟩
  | d4 => exact ⟨_, _, rfl, exec_pix4 _ _ s, fun _ => .inr (.inl rfl)⟩
  | d8 => exact ⟨_, _, rfl, exec_pix8 _ s, fun _ => .inr (.inr rfl)⟩
  | d24 => exact ⟨_, _, rfl, exec_pix24 _ _ _ s, nofun⟩
  | d32 => exact ⟨_, _, rfl, exec_pix32 _ _ _ _ s, nofun⟩

/-- A step of a calm unpack leaves one pixel less, or ends it: with success after the last pixel, or with an index error. -/
theorem State.UnpackLeft.step {g : Cfg} {d : Depth} {n : Nat} {s : State} (h : s.UnpackLeft g d n) :
    ∃ t, Machine.step s = .next t ∧
      ((∃ m, n = m + 1 ∧ t.UnpackLeft g d m) ∨
        t.busy = false ∧ t.status.done = true ∧ (n = 0 ∧ t.UnpackedAll g d ∨ t.IndexError d)) := by
  obtain ⟨i, color, hf, hexec, hnone⟩ := s.fetchPixel_run d
  rw [step_calm_body h.calm (State.running_phase h.running),
    interpretStep_run ((State.fetch_unpack h.running).trans hf), hexec]
  cases hc : color s with
  | none => exact ⟨_, pixelStep_none h.running hc, .inr ⟨rfl, rfl, .inr ⟨hnone hc, rfl⟩⟩⟩
  | some c =>
    refine ⟨_, pixelStep_some h.running hc, (h.storePixel c).nextPixel.imp_right ?_⟩
    exact fun ⟨hb, hdone, hlast⟩ => ⟨hb, hdone, .inl hlast⟩

/-! ### The unpack ends (R342) -/

/-- An operation is busy until it ends, at step n + 1 or before, when each step that goes on lowers n by one and only one
at n = 0 has the end `Last`. -/
theorem run_ends_exactly {P : Nat → State → Prop} {Last Early : State → Prop} (hbusy : ∀ n s, P n s → s.busy = true)
    (hstep : ∀ n s, P n s → ∃ t, step s = .next t ∧
      ((∃ m, n = m + 1 ∧ P m t) ∨ t.busy = false ∧ t.status.done = true ∧ (n = 0 ∧ Last t ∨ Early t)))
    {n : Nat} {s : State} (h : P n s) :
    ∃ k ≤ n, (∀ i ≤ k, ∃ t : State, Host.Core.run Sys2Proof.core i s = .next t ∧ t.busy = true) ∧
      ∃ t : State, Host.Core.run Sys2Proof.core (k + 1) s = .next t ∧ t.busy = false ∧ t.status.done = true ∧
        (k = n ∧ Last t ∨ Early t) := by
  induction n using Nat.strong_induction_on generalizing s with
  | _ n ih =>
  obtain ⟨t, ht, ⟨m, rfl, hnext⟩ | ⟨hb, hdone, hend⟩⟩ := hstep n s h
  · obtain ⟨k, hk, hrun, u, hu, hb, hdone, hend⟩ := ih m (Nat.lt_succ_self m) hnext
    refine ⟨k + 1, by omega, fun i hi => ?_, u, (run_of_step (M := Sys2Proof.core) ht _).trans hu, hb, hdone,
      hend.imp_left (And.imp_left (congrArg (· + 1)))⟩
    cases i with
    | zero => exact ⟨s, rfl, hbusy _ s h⟩
    | succ i =>
      obtain ⟨v, hv, hvb⟩ := hrun i (by omega)
      exact ⟨v, (run_of_step (M := Sys2Proof.core) ht _).trans hv, hvb⟩
  · refine ⟨0, Nat.zero_le _, fun i hi => ?_, t, run_of_step (M := Sys2Proof.core) ht 0, hb, hdone,
      hend.imp_left (And.imp_left Eq.symm)⟩
    obtain rfl := Nat.le_zero.mp hi
    exact ⟨s, rfl, hbusy n s h⟩

/-- Settles O42: each step that goes on takes one of the pixels left. -/
theorem unpackEndsExactly : Obligations.UnpackEndsExactly := by
  intro d s hi hcalm hr
  dsimp only
  have hin := State.running_pixel_in_image hr
  obtain ⟨n, hn⟩ := Nat.exists_eq_add_of_lt hin
  have hleft : s.UnpackLeft s.cfg d n := ⟨hi, hcalm, hr, rfl, hn.symm⟩
  obtain ⟨k, hk, hrun, t, ht, hb, hdone, hend⟩ := run_ends_exactly (P := State.UnpackLeft s.cfg d)
    (fun _ _ => State.UnpackLeft.busy) (fun _ _ => State.UnpackLeft.step) hleft
  refine ⟨k + 1, by omega, by omega, fun i hlt => hrun i (Nat.le_of_lt_succ hlt), t, ht, hb, hdone, ?_⟩
  exact hend.imp_left fun ⟨hkn, hlast⟩ => ⟨by omega, hlast⟩

end Sys2Proof.Machine
end

section
/-!
PROOF. How START fails (spec/60_exceptions.md R403): the first six of the model's checks, which raise BAD_CONFIG, pass
exactly for a legal set-up, and the last one, which raises TRUNCATED, passes exactly when the input covers the image. A
reserved command word, and a legal one whose checks fail, ends in its first step (R126, R401); an idle engine, or one held
in reset, takes no step (R426, R450).
-/

namespace Sys2Proof.Machine

/-! ### The first failing check -/

theorem firstFailing_append (l l' : List (Bool × ErrCode)) :
    firstFailing (l ++ l') = (firstFailing l).or (firstFailing l') := by
  simp [firstFailing, List.find?_append, Option.map_or]

/-- Checks that raise one code raise it, when one of them fails. -/
theorem firstFailing_of_forall_code {l : List (Bool × ErrCode)} {e : ErrCode} (hcode : ∀ c ∈ l, c.2 = e)
    (hfails : firstFailing l ≠ none) : firstFailing l = some e := by
  obtain ⟨x, hx⟩ := Option.ne_none_iff_exists'.mp hfails
  obtain ⟨check, hfind, rfl⟩ := Option.map_eq_some_iff.mp hx
  rw [hx, hcode check (List.mem_of_find?_eq_some hfind)]

/-! ### The model's checks and the spec's (R403) -/

/-- Regions overlap exactly when they have a common byte (R89). -/
theorem overlaps_eq_false_iff {base len base' len' : Nat} :
    overlaps base len base' len' = false ↔ ¬ shareByte base len base' len' := by
  refine ⟨?_, overlaps_eq_false⟩
  rintro ho ⟨a, ⟨ha, hlt⟩, ha', hlt'⟩
  have hoverlap : overlaps base len base' len' = true := by
    simp only [overlaps, Bool.and_eq_true, decide_eq_true_eq]
    omega
  exact Bool.false_ne_true (ho.symm.trans hoverlap)

/-- A codec operation stands at its own depth (R112, R113). -/
theorem depthCheck_eq_false_iff (op : Operation) (d : Depth) :
    op.depth?.any (· != d) = false ↔ ∀ b, op.depth? = some b → d = b := by
  cases op.depth? with
  | none => simp
  | some b => simpa using eq_comm

/-- Checks 3 to 8 of R403. -/
def setupChecks (op : Operation) (d : Depth) (f : CmdFlags) (g : Cfg) : List (Bool × ErrCode) :=
  (configChecks op d f g).take 6

/-- Check 9 of R403. -/
def inputCheck (op : Operation) (d : Depth) (g : Cfg) : Bool × ErrCode :=
  ((op == .unpack || op == .encRle8 || op == .encRle4) &&
    decide (g.inLen.toNat < stride d g.width.toNat * g.height.toNat), .truncated)

theorem configChecks_eq (op : Operation) (d : Depth) (f : CmdFlags) (g : Cfg) :
    configChecks op d f g = setupChecks op d f g ++ [inputCheck op d g] := rfl

theorem configError_eq (op : Operation) (d : Depth) (f : CmdFlags) (g : Cfg) :
    configError op d f g = (firstFailing (setupChecks op d f g)).or (firstFailing [inputCheck op d g]) := by
  rw [configError, configChecks_eq, firstFailing_append]

theorem setupChecks_code {op : Operation} {d : Depth} {f : CmdFlags} {g : Cfg} :
    ∀ c ∈ setupChecks op d f g, c.2 = .badConfig := by
  simp [setupChecks, configChecks]

/-- Checks 3 to 8 pass exactly for a legal set-up. -/
theorem firstFailing_setupChecks_eq_none_iff {op : Operation} {d : Depth} {f : CmdFlags} {g : Cfg} :
    firstFailing (setupChecks op d f g) = none ↔ SetupLegal op d f g := by
  rw [firstFailing_eq_none]
  simp only [setupChecks, configChecks, List.take_succ_cons, List.take_zero, List.forall_mem_cons, List.not_mem_nil,
    false_imp_iff, implies_true, and_true, Bool.or_eq_false_iff, Bool.and_eq_false_imp, decide_eq_false_iff_not,
    Bool.not_eq_false', not_lt, beq_iff_eq, bne_eq_false_iff_eq, depthCheck_eq_false_iff, legalDim_iff,
    overlaps_eq_false_iff, SetupLegal, and_assoc]
  -- What differs is the names of the bounds (`Config.palMax`, `Config.memSize`).
  exact Iff.rfl

/-- Check 9 passes exactly when the input covers the image. -/
theorem firstFailing_inputCheck_eq_none_iff {op : Operation} {d : Depth} {g : Cfg} :
    firstFailing [inputCheck op d g] = none ↔ InputCovers op d g := by
  rw [firstFailing_eq_none, List.forall_mem_singleton]
  simp only [inputCheck, InputCovers, Bool.and_eq_false_imp, Bool.or_eq_true, beq_iff_eq, decide_eq_false_iff_not,
    not_lt, or_assoc]

theorem configError_of_not_legal {op : Operation} {d : Depth} {f : CmdFlags} {g : Cfg} (h : ¬ SetupLegal op d f g) :
    configError op d f g = some .badConfig := by
  have hfails := firstFailing_of_forall_code setupChecks_code (mt firstFailing_setupChecks_eq_none_iff.mp h)
  rw [configError_eq, hfails, Option.some_or]

theorem configError_of_not_covers {op : Operation} {d : Depth} {f : CmdFlags} {g : Cfg} (h : SetupLegal op d f g)
    (hin : ¬ InputCovers op d g) : configError op d f g = some .truncated := by
  have hfails := firstFailing_of_forall_code (List.forall_mem_singleton.mpr rfl)
    (mt firstFailing_inputCheck_eq_none_iff.mp hin)
  rw [configError_eq, firstFailing_setupChecks_eq_none_iff.mpr h, hfails, Option.none_or]
  rfl

/-- Settles O13: checks 3 to 8 raise BAD_CONFIG, check 9 alone raises TRUNCATED, and a configuration that meets them all
passes. -/
theorem startChecks : Obligations.StartChecks :=
  fun _ _ _ _ => ⟨configError_of_not_legal, configError_of_not_covers, configError_of_legal⟩

/-! ### The failing first steps (R126, R401) -/

theorem exec_reservedOpCommand_ends {s : State} (hp : s.eng.phase = .start) (hr : s.plat.races = []) {op : BitVec 4}
    (ho : Operation.ofCode op = none) (b : BitVec 3) (f : CmdFlags) :
    exec (reservedOpCommand op b f) s = .next (s.ended .unsupported) := by
  rw [exec_reservedOpCommand ho, runCommand_start hp, State.raise_of_no_races hr]

theorem exec_reservedBppCommand_ends {s : State} (hp : s.eng.phase = .start) (hr : s.plat.races = []) {b : BitVec 3}
    (hb : Depth.ofCode b = none) (op : Operation) (f : CmdFlags) :
    exec (reservedBppCommand op b f) s = .next (s.ended .unsupported) := by
  rw [exec_reservedBppCommand hb, runCommand_start hp, State.raise_of_no_races hr]

theorem exec_legalCommand_fails {s : State} (hp : s.eng.phase = .start) (hr : s.plat.races = []) {op : Operation}
    {d : Depth} {f : CmdFlags} {c : ErrCode} (hc : configError op d f s.cfg = some c) :
    exec (legalCommand op d f) s = .next (s.ended c) := by
  rw [exec_legalCommand_start hp, State.firstStep_fails hc, State.raise_of_no_races hr]

/-- Settles O15: the nine reserved OP values and the three reserved BPP values, then a legal word by the code of its first
failing check. -/
theorem commandFails : Obligations.CommandFails := by
  intro f s hp hr
  refine ⟨?reservedOp, ?reservedBpp, fun op d => ⟨fun hl => ?badConfig, fun hl hin => ?truncated⟩⟩
  case reservedOp =>
    have hop (op : BitVec 4) (ho : Operation.ofCode op = none) (b : BitVec 3) :=
      exec_reservedOpCommand_ends hp hr ho b f
    rintro i b (rfl | rfl | rfl | rfl | rfl | rfl | rfl | rfl | rfl)
    exacts [hop 0x5 rfl b, hop 0x6 rfl b, hop 0x7 rfl b, hop 0x8 rfl b, hop 0xB rfl b, hop 0xC rfl b, hop 0xD rfl b,
      hop 0xE rfl b, hop 0xF rfl b]
  case reservedBpp =>
    have hbpp (b : BitVec 3) (hb : Depth.ofCode b = none) (op : Operation) :=
      exec_reservedBppCommand_ends hp hr hb op f
    rintro i op (rfl | rfl | rfl)
    exacts [hbpp 5 rfl op, hbpp 6 rfl op, hbpp 7 rfl op]
  case badConfig => exact exec_legalCommand_fails hp hr (configError_of_not_legal hl)
  case truncated => exact exec_legalCommand_fails hp hr (configError_of_not_covers hl hin)

/-! ### An idle engine (R426, R450) -/

/-- Settles O12: with nothing pending a step is the engine's turn, which an idle engine, or one in reset, does not use. -/
theorem idleStays : Obligations.IdleStays := by
  intro s hin h
  rw [step_no_inputs hin]
  obtain hidle | hreset := h
  · exact engineStep_idle hidle
  · exact engineStep_inReset hreset

end Sys2Proof.Machine
end

section
/-!
PROOF. Reset (spec/70_reset_and_hazards.md R450 to R453): what each input does while the platform holds reset, the
registers after it, and what a START makes of them.
-/

namespace Sys2Proof.Machine

/-- A run of one step more, when that step is known. -/
theorem run_succ_of_step {k : Nat} {s t u : State} (hrun : Host.Core.run Sys2Proof.core k s = .next t)
    (hstep : step t = .next u) : Host.Core.run Sys2Proof.core (k + 1) s = .next u :=
  (run_succ (M := Sys2Proof.core) hrun).trans hstep

/-! ### The block held in reset (R450) -/

/-- An assertion of reset with no race open holds the block and leaves memory alone. -/
theorem step_assertReset {s : State} {rest : List Input} (hraces : s.plat.races = [])
    (h : s.plat.inputs = .reset true :: rest) :
    ∃ r, step s = .next r ∧ r.plat.inReset = true ∧ r.plat.inputs = rest ∧ r.mem = s.mem := by
  refine ⟨(s.withInputs rest).assertReset, ?_, rfl, rfl, State.settle_mem_of_no_races hraces⟩
  rw [step_host h (by simp), hostStep]

/-- A turn that the platform gives the engine goes unused while reset is asserted. -/
theorem step_engine_inReset {s : State} {rest : List Input} (hr : s.plat.inReset = true)
    (h : s.plat.inputs = .engine :: rest) : step s = .next (s.withInputs rest) := by
  rw [step_engine h, engineStep_inReset (by simpa using hr)]

/-! ### The end of a reset (R450, R451) -/

/-- An idle block whose register fields are those of `State.reset` reads as it does: 0 everywhere. -/
theorem State.regValue_eq_zero {s : State} (hctrl : s.ctrl = .zero) (hstatus : s.status = .zero) (hcfg : s.cfg = .zero)
    (hpos : s.pos = .zero) (hidle : s.eng.phase = .idle) (k : Nat) : s.regValue k = 0 := by
  have hsame : s.regValue k = State.reset.regValue k := by
    simp only [State.regValue, State.ctrlWord, State.statusWord, State.busy, State.err, hctrl, hstatus, hcfg, hpos, hidle]
    rfl
  rw [hsame, reset_regValue]

/-- The deassertion frees the block, with every register 0, the engine idle and memory as it is. -/
theorem step_deassertReset {r : State} {rest : List Input} (hr : r.plat.inReset = true)
    (h : r.plat.inputs = .reset false :: rest) :
    ∃ t, step r = .next t ∧ t.plat.inReset = false ∧ (∀ k, t.regValue k = 0) ∧ t.busy = false ∧ t.irq = false ∧
      t.mem = r.mem ∧ t.plat.inputs = rest := by
  obtain ⟨hctrl, hstatus, hcfg, hpos, hidle, hmem, hfree, hinputs⟩ :=
    State.deassertReset_of_inReset (s := r.withInputs rest) hr
  refine ⟨_, ?step, hfree, State.regValue_eq_zero hctrl hstatus hcfg hpos hidle, ?busy, ?irq, hmem, hinputs⟩
  case step => rw [step_host h (by simp), hostStep]
  case busy => simp [State.busy, hidle]
  case irq => simp [State.irq, hstatus, Status.zero]

/-- Settles O51: between its assertion and its deassertion the register write and the engine's turn take their inputs and
nothing else. -/
theorem resetEvent : Obligations.ResetEvent := by
  intro s offset v rest hraces ho hin
  obtain ⟨r, hassert, hheld, hinputs, hmem⟩ := step_assertReset hraces hin
  have hwrite := step_writeReg_inReset ho hheld hinputs
  have hturn := step_engine_inReset (s := r.withInputs (.engine :: .reset false :: rest)) hheld rfl
  obtain ⟨t, hdeassert, hfree, hregs, hbusy, hirq, hmem', hinputs'⟩ :=
    step_deassertReset (r := r.withInputs (.reset false :: rest)) hheld rfl
  have hrun1 := run_succ_of_step (k := 0) rfl hassert
  have hrun3 := run_succ_of_step (run_succ_of_step hrun1 hwrite) hturn
  exact ⟨r, t, hrun1, hheld, hrun3, run_succ_of_step hrun3 hdeassert, hfree, fun k => hregs k.toNat, hbusy, hirq,
    hmem'.trans hmem, hinputs'⟩

/-! ### START on the registers of a reset block (R453) -/

/-- No operation accepts an image of width 0 (check 4 of R403). -/
theorem not_setupLegal_of_width_zero {g : Cfg} (hw : g.width = 0) (op : Operation) (d : Depth) (f : CmdFlags) :
    ¬ SetupLegal op d f g := by
  rintro ⟨-, ⟨hpos, -⟩, -⟩
  simp [hw] at hpos

/-- The first step of a calm operation that a check stops (R401, R403). -/
theorem step_start_fails {s : State} {op : Operation} {d : Depth} {c : ErrCode} (hcalm : s.calm)
    (hp : s.eng.phase = .start) (ho : s.ctrl.op = op.code) (hd : s.ctrl.bpp = d.code)
    (hc : configError op d s.ctrl.flags s.cfg = some c) : step s = .next (s.ended c) := by
  obtain ⟨hr, hi, hraces⟩ := hcalm
  rw [step_no_inputs hi, engineStep_start hr hp, State.drawn_of_no_races hraces,
    interpretStep_run (State.fetch_start hp), ho, hd, commandOf_code, exec_legalCommand_fails hp hraces hc]

/-- A CTRL write with bit 0 set, to an idle block out of reset (R44). -/
theorem step_writeCtrl_start {s : State} {v : Word} {rest : List Input} (hr : s.plat.inReset = false)
    (hb : s.busy = false) (hv : v.getLsbD 0 = true) (h : s.plat.inputs = .writeReg 0x00 4 v :: rest) :
    step s = .next (State.startAction { s.withInputs rest with ctrl := Ctrl.ofWord v }) := by
  have hstart : (s.withInputs rest).writeCtrl v = State.startAction { s.withInputs rest with ctrl := Ctrl.ofWord v } :=
    State.writeCtrl_start (s := s.withInputs rest) hb hv
  rw [step_writeReg (offset := 0x00) rfl hr h, ← hstart]
  rfl

/-- Settles O53: the CTRL write starts UNPACK at 1 bpp on the zero configuration, and its WIDTH stops the first step. -/
theorem startAfterReset : Obligations.StartAfterReset := by
  have hwrite := run_succ_of_step (k := 0) rfl (step_writeCtrl_start (v := 1) (rest := [])
    (s := { State.reset with plat := { State.reset.plat with inputs := [.writeReg 0x00 4 1] } }) rfl rfl rfl rfl)
  refine ⟨_, _, hwrite, rfl, rfl, rfl, rfl,
    step_start_fails (op := .unpack) (d := .d1) (c := .badConfig) ⟨rfl, rfl, rfl⟩ rfl rfl rfl ?width, rfl, rfl, rfl⟩
  case width => exact configError_of_not_legal (not_setupLegal_of_width_zero rfl _ _ _)

end Sys2Proof.Machine
end
